-- ==== Sys2Proof/Word.lean ====
section
/-! DEFINITION. The word types of the block (00_scope.md R28: bit 0 is the least significant bit; all quantities are unsigned). -/

namespace Sys2Proof

/-- One bit: `draw_sel`, `swap_pending`, the pins `BLANK`, `LAT`, `CLK`, the `tick` strobe. -/
abbrev Bit := BitVec 1

/-- One byte of a plane: one pixel (20_memory.md R30, R32). -/
abbrev Byte := BitVec 8

/-- A colour code: bit `k` drives data line `k` of a chain (20_memory.md R32, 41 R88). -/
abbrev Colour := BitVec 3

/-- A word of the host command port or of the host response port (30_encoding.md R50). -/
abbrev PortBits := BitVec 32

end Sys2Proof
end

