-- ==== Sys2Proof/Syntax.lean ====
section
/-! DEFINITION. The operations of the block: one constructor per row of spec/opcode_table.json (00_scope.md R3). `SCANSTEP` has no row: it is the macro of 40 R70. -/

namespace Sys2Proof

/-- The operation set of the block (00_scope.md R3). -/
inductive Instr where
  /-- `SETPIX x, y, c` (43 R110) -/
  | setpix (x y : Nat) (c : Byte)
  /-- `SWAPREQ` (42 R100) -/
  | swapreq
  /-- `DRAWBUF` (42 R101) -/
  | drawbuf
  /-- `REGPER n` (44 R120) -/
  | regper (n : Nat)
  /-- `TICK` (44 R121) -/
  | tick
  /-- `BLANK`, step 1 (40 R71) -/
  | blank
  /-- `ADVANCE`, step 2 (40 R72) -/
  | advance
  /-- `SWAPCHK`, step 3 (42 R102) -/
  | swapchk
  /-- `SETADDR`, step 4 (40 R73) -/
  | setaddr
  /-- `SHIFTROW`, step 5 (41 R85) -/
  | shiftrow
  /-- `LATCH`, step 6 (40 R74) -/
  | latch
  /-- `UNBLANK`, step 7 (40 R75) -/
  | unblank
  deriving DecidableEq, Repr

/-- The two contexts of 60_exceptions.md R139. -/
inductive Context where
  /-- the main-loop agent's -/
  | mainLoop
  /-- the tick agent's, and through it the sequencer's -/
  | interrupt
  deriving DecidableEq, Repr

/-- The context an operation is issued in (60_exceptions.md R139). -/
def Instr.context : Instr → Context
  | .setpix _ _ _ => .mainLoop
  | .swapreq => .mainLoop
  | .drawbuf => .mainLoop
  | .regper _ => .mainLoop
  | .tick => .interrupt
  | .blank => .interrupt
  | .advance => .interrupt
  | .swapchk => .interrupt
  | .setaddr => .interrupt
  | .shiftrow => .interrupt
  | .latch => .interrupt
  | .unblank => .interrupt

end Sys2Proof
end

