-- ==== Sys2Proof/WellFormed.lean ====
section
/-! DEFINITION. When an operation can be written in its format: every operand fits its field (30_encoding.md R52, R55, R59). An 8-bit colour fits by its type. -/

namespace Sys2Proof

/-- Every operand fits its field: `x`, `y` in 10 bits (R52), `n` in 16 bits (R55). -/
def Instr.wellFormed : Instr → Bool
  | .setpix x y _ => decide (x < 2 ^ 10) && decide (y < 2 ^ 10)
  | .swapreq => true
  | .drawbuf => true
  | .regper n => decide (n < 2 ^ 16)
  | .tick => true
  | .blank => true
  | .advance => true
  | .swapchk => true
  | .setaddr => true
  | .shiftrow => true
  | .latch => true
  | .unblank => true

end Sys2Proof
end

