-- ==== Sys2Proof/Decode.lean ====
section
/-! DEFINITION. The decoder of the three formats that carry operations (30_encoding.md R50 to R61), total on every word, and the encoder beside it. -/

namespace Sys2Proof

/-- A word on one of the three interfaces that carry operations (30_encoding.md R50). -/
inductive PortWord where
  /-- format `CMD`: the host command port (R51) -/
  | cmd (w : PortBits)
  /-- format `EVT`: the level of the `tick` wire (R56) -/
  | evt (level : Bit)
  /-- format `UOP`: the value of `phase` (R57) -/
  | uop (code : BitVec 3)
  deriving DecidableEq, Repr

/-- Why a word is no operation. -/
inductive Rejected where
  /-- a reserved command word, which the block ignores (30_encoding.md R60) -/
  | reservedCommand
  /-- `tick` at 0: "the value 0 is no event" (30_encoding.md R56) -/
  | noEvent
  /-- `phase` 0: "idle (no micro-operation; between scan steps)" (30_encoding.md R57) -/
  | idlePhase
  deriving DecidableEq, Repr

/-- What a decoder answers. -/
inductive Decoded where
  | operation (i : Instr)
  | rejected (why : Rejected)
  deriving DecidableEq, Repr

/-- `op = word[31:28]` (30_encoding.md R51). -/
def cmdOp (w : PortBits) : BitVec 4 := w.extractLsb' 28 4

/-- `c = word[27:20]` (30_encoding.md R52, R59). -/
def cmdC (w : PortBits) : Byte := w.extractLsb' 20 8

/-- `y = word[19:10]` (30_encoding.md R52, R59). -/
def cmdY (w : PortBits) : BitVec 10 := w.extractLsb' 10 10

/-- `x = word[9:0]` (30_encoding.md R52, R59). -/
def cmdX (w : PortBits) : BitVec 10 := w.extractLsb' 0 10

/-- `n = word[15:0]` (30_encoding.md R55, R59). -/
def cmdN (w : PortBits) : BitVec 16 := w.extractLsb' 0 16

/-- Bits `[27:0]`, which must be zero in `SWAPREQ` and `DRAWBUF` (30_encoding.md R53, R54, R60). -/
def cmdLow28 (w : PortBits) : BitVec 28 := w.extractLsb' 0 28

/-- Bits `[27:16]`, which must be zero in `REGPER` (30_encoding.md R55, R60). -/
def cmdMid12 (w : PortBits) : BitVec 12 := w.extractLsb' 16 12

/-- The command decoder: `op` first, the must-be-zero bits second (30_encoding.md R61). -/
def decodeCmd (w : PortBits) : Decoded :=
  if cmdOp w = 0x1#4 then .operation (.setpix (cmdX w).toNat (cmdY w).toNat (cmdC w))
  else if cmdOp w = 0x2#4 then
    if cmdLow28 w = 0 then .operation .swapreq else .rejected .reservedCommand
  else if cmdOp w = 0x3#4 then
    if cmdLow28 w = 0 then .operation .drawbuf else .rejected .reservedCommand
  else if cmdOp w = 0x4#4 then
    if cmdMid12 w = 0 then .operation (.regper (cmdN w).toNat) else .rejected .reservedCommand
  else .rejected .reservedCommand

/-- One assertion of `tick` is a `TICK` (30_encoding.md R56). -/
def decodeEvt (level : Bit) : Decoded :=
  if level = 1#1 then .operation .tick else .rejected .noEvent

/-- The code of a micro-operation is the number of its step (30_encoding.md R57). -/
def decodeUop (code : BitVec 3) : Decoded :=
  match code.toNat with
  | 1 => .operation .blank
  | 2 => .operation .advance
  | 3 => .operation .swapchk
  | 4 => .operation .setaddr
  | 5 => .operation .shiftrow
  | 6 => .operation .latch
  | 7 => .operation .unblank
  | _ => .rejected .idlePhase

/-- The decoder, total on every word of every format (30_encoding.md R61). -/
def decode : PortWord → Decoded
  | .cmd w => decodeCmd w
  | .evt level => decodeEvt level
  | .uop code => decodeUop code

/-- The word of an operation, field by field from the tables of 30_encoding.md R52 to R57. DESIGN CHOICE (log 22): an operand too wide for its field,
which no word of the spec carries, is written modulo the field. -/
def encode : Instr → PortWord
  | .setpix x y c => .cmd (0x1#4 ++ c ++ BitVec.ofNat 10 y ++ BitVec.ofNat 10 x)
  | .swapreq => .cmd (0x2#4 ++ 0#28)
  | .drawbuf => .cmd (0x3#4 ++ 0#28)
  | .regper n => .cmd (0x4#4 ++ 0#12 ++ BitVec.ofNat 16 n)
  | .tick => .evt 1#1
  | .blank => .uop 0b001#3
  | .advance => .uop 0b010#3
  | .swapchk => .uop 0b011#3
  | .setaddr => .uop 0b100#3
  | .shiftrow => .uop 0b101#3
  | .latch => .uop 0b110#3
  | .unblank => .uop 0b111#3

/-- One row of the opcode table that gives a match and a mask. -/
structure CmdRow where
  mnemonic : String
  matchBits : PortBits
  mask : PortBits
  deriving DecidableEq, Repr

/-- The four `CMD` rows of spec/opcode_table.json (30_encoding.md R52 to R55). -/
def cmdRows : List CmdRow :=
  [ ⟨"SETPIX", 0x10000000#32, 0xF0000000#32⟩,
    ⟨"SWAPREQ", 0x20000000#32, 0xFFFFFFFF#32⟩,
    ⟨"DRAWBUF", 0x30000000#32, 0xFFFFFFFF#32⟩,
    ⟨"REGPER", 0x40000000#32, 0xFFFF0000#32⟩ ]

/-- The row's fixed bits are the word's. -/
def CmdRow.fits (r : CmdRow) (w : PortBits) : Bool := w &&& r.mask == r.matchBits

/-- The mnemonic of an operation, as the table has it. -/
def Instr.mnemonic : Instr → String
  | .setpix _ _ _ => "SETPIX"
  | .swapreq => "SWAPREQ"
  | .drawbuf => "DRAWBUF"
  | .regper _ => "REGPER"
  | .tick => "TICK"
  | .blank => "BLANK"
  | .advance => "ADVANCE"
  | .swapchk => "SWAPCHK"
  | .setaddr => "SETADDR"
  | .shiftrow => "SHIFTROW"
  | .latch => "LATCH"
  | .unblank => "UNBLANK"

/-- The textual form of 30_encoding.md R62, operands in decimal. -/
def Instr.text : Instr → String
  | .setpix x y c => "SETPIX " ++ toString x ++ ", " ++ toString y ++ ", " ++ toString c.toNat
  | .regper n => "REGPER " ++ toString n
  | .swapreq => "SWAPREQ"
  | .drawbuf => "DRAWBUF"
  | .tick => "TICK"
  | .blank => "BLANK"
  | .advance => "ADVANCE"
  | .swapchk => "SWAPCHK"
  | .setaddr => "SETADDR"
  | .shiftrow => "SHIFTROW"
  | .latch => "LATCH"
  | .unblank => "UNBLANK"

/-- Which interface a table word of `nbits` bits stands on: 32 bits is `CMD`, 1 bit is `EVT`, 3 bits is `UOP`. Rounded up to a byte the last
two have one size: there the word 1 is taken as `TICK`, the one of the two that an agent issues (log 13). -/
def tableWord (nbits w : Nat) : Option PortWord :=
  if nbits = 32 then (if w < 2 ^ 32 then some (.cmd (BitVec.ofNat 32 w)) else none)
  else if nbits = 1 then (if w < 2 then some (.evt (BitVec.ofNat 1 w)) else none)
  else if nbits = 3 then (if w < 8 then some (.uop (BitVec.ofNat 3 w)) else none)
  else if nbits = 8 then
    (if w = 1 then some (.evt 1#1) else if w < 8 then some (.uop (BitVec.ofNat 3 w)) else none)
  else none

/-- The operation the decoder reads from a table word (none where it refuses). -/
def decodeTableWord (nbits w : Nat) : Option Instr :=
  match tableWord nbits w with
  | none => none
  | some p =>
    match decode p with
    | .operation i => some i
    | .rejected _ => none

end Sys2Proof
end

