-- ==== Sys2Proof/Config.lean ====
section
/-! DEFINITION. What is fixed for a block before it runs: the topology record `T` (00_scope.md R6), and the free values the spec leaves open.
The two constants without a body are free values: nothing can evaluate them, and a claim holds whatever they are. -/

namespace Sys2Proof

/-- The LED colour a data line is wired to (00_scope.md R6 `COLOR_OF_LINE`); no rule of the block reads it. -/
inductive LedColor where
  | red
  | green
  | blue
  deriving DecidableEq, Repr, Inhabited

/-- `LANE[p][c]` of 00_scope.md R6: which buffer rows a chain carries in a pass, and in which order. -/
structure Lane where
  /-- `row_base` -/
  rowBase : Nat
  /-- `row_rev` -/
  rowRev : Bool
  /-- `col_rev` -/
  colRev : Bool
  deriving DecidableEq, Repr, Inhabited

/-- The topology record `T` of 00_scope.md R6. Each instance of the block has its own (60_exceptions.md R142). -/
structure Topology where
  /-- `WIDTH`: columns of the frame buffer and clock pulses per pass -/
  width : Nat
  /-- `HEIGHT`: rows of the frame buffer -/
  height : Nat
  /-- `ROWS_PER_SCAN`: scan steps in a full refresh -/
  rowsPerScan : Nat
  /-- `ADDR_BITS`: width of the row-address bus -/
  addrBits : Nat
  /-- `N_CHAINS`: chains driven at once in a pass -/
  nChains : Nat
  /-- `N_PASSES`: shift passes per scan step -/
  nPasses : Nat
  /-- `LANE`, pass by pass, and in a pass chain by chain -/
  lanes : List (List Lane)
  /-- `Y_INVERT` -/
  yInvert : Bool
  /-- `INTERVAL_BITS`: width of the interval register -/
  intervalBits : Nat
  /-- `INIT_PLANES`, by a number that names the contents: the bytes are the free value `Config.initPlanes` at that number (log 3) -/
  initPlanes : Nat
  /-- `COLOR_OF_LINE`, chain by chain, and in a chain line by line; an entry left out is a wiring not told -/
  colorOfLine : List (List LedColor)
  deriving DecidableEq, Repr, Inhabited

/-- FREE VALUE (log 3). The contents `INIT_PLANES` that a number names (00_scope.md R6, 10_state.md R23): the byte at an offset of a plane that
nothing has written since reset: "any bytes; a model must not assume zero". -/
opaque Config.initPlanes : (contents : Nat) → Bit → Nat → Byte

/-- FREE VALUE (log 5). What `REGPER n` leaves in the interval register of a block of record `T` that has no place for `n`: the spec states no
result there. It is used modulo `2 ^ T.INTERVAL_BITS`, so the register's width is kept. -/
opaque Config.narrowInterval : (T : Topology) → (n : Nat) → Nat

end Sys2Proof
end

