-- ==== Sys2Proof/Machine/Topology.lean ====
section
/-! DEFINITION. The topology record at work: its lanes, when it is well formed (00_scope.md R7), and the records the spec names (R8, R9). -/

namespace Sys2Proof

/-- `LANE[p][c]` (00_scope.md R6). -/
def Topology.lane (T : Topology) (p c : Nat) : Lane := (T.lanes.getD p []).getD c default

/-- `COLOR_OF_LINE[c][k]` (00_scope.md R6, 41 R88), where the record tells it. -/
def Topology.lineColor (T : Topology) (c k : Nat) : Option LedColor := (T.colorOfLine.getD c [])[k]?

/-- `T.WIDTH * T.HEIGHT`: the bytes of a plane (10_state.md R10). -/
def Topology.planeSize (T : Topology) : Nat := T.width * T.height

/-- `3 + T.ADDR_BITS + 3 * T.N_CHAINS` output wires (60_exceptions.md R141). -/
def Topology.wires (T : Topology) : Nat := 3 + T.addrBits + 3 * T.nChains

/-- `LANE[p][c]` is given for exactly `p < N_PASSES`, `c < N_CHAINS` (the field's type in 00_scope.md R6; log 16). -/
def Topology.lanesShaped (T : Topology) : Bool :=
  T.lanes.length == T.nPasses && T.lanes.all (fun row => row.length == T.nChains)

/-- The lanes' places `(p, c)`. -/
def Topology.laneIds (T : Topology) : List (Nat × Nat) :=
  (List.range T.nPasses).flatMap (fun p => (List.range T.nChains).map (fun c => (p, c)))

/-- "for every lane (p, c): LANE[p][c].row_base + ROWS_PER_SCAN <= HEIGHT" (00_scope.md R7). -/
def Topology.lanesInside (T : Topology) : Bool :=
  T.laneIds.all (fun a => decide ((T.lane a.1 a.2).rowBase + T.rowsPerScan ≤ T.height))

/-- The row ranges of two lanes have no row in common. -/
def Topology.lanesApart (T : Topology) (a b : Nat × Nat) : Bool :=
  decide ((T.lane a.1 a.2).rowBase + T.rowsPerScan ≤ (T.lane b.1 b.2).rowBase ∨
    (T.lane b.1 b.2).rowBase + T.rowsPerScan ≤ (T.lane a.1 a.2).rowBase)

/-- "the row ranges ... of the N_PASSES*N_CHAINS lanes are pairwise disjoint" (00_scope.md R7). -/
def Topology.lanesDisjoint (T : Topology) : Bool :=
  T.laneIds.all (fun a => T.laneIds.all (fun b => a == b || T.lanesApart a b))

/-- 00_scope.md R7: the record is well formed. The lanes' shape and `ADDR_BITS >= 1` are the fields' types in R6 (log 16). -/
def Topology.wf (T : Topology) : Bool :=
  decide (1 ≤ T.width ∧ 1 ≤ T.height) &&
  decide (1 ≤ T.rowsPerScan ∧ T.rowsPerScan ≤ 2 ^ T.addrBits) &&
  decide ((T.nChains = 1 ∨ T.nChains = 2) ∧ (T.nPasses = 1 ∨ T.nPasses = 2)) &&
  decide (T.height = T.rowsPerScan * T.nPasses * T.nChains) &&
  T.lanesInside && T.lanesDisjoint &&
  decide (T.width * T.height ≤ 2 ^ 20) &&
  decide (1 ≤ T.intervalBits) &&
  decide (1 ≤ T.addrBits) && T.lanesShaped

/-- `T_SINGLE` (00_scope.md R8); `Y_INVERT`, `COLOR_OF_LINE` and `INIT_PLANES` are open parameters. -/
def Topology.tSingle (yInvert : Bool) (colors : List (List LedColor)) (init : Nat) : Topology where
  width := 64
  height := 64
  rowsPerScan := 32
  addrBits := 5
  nChains := 2
  nPasses := 1
  lanes := [[⟨0, false, false⟩, ⟨32, false, false⟩]]
  yInvert := yInvert
  intervalBits := 16
  initPlanes := init
  colorOfLine := colors

/-- `T_DUAL` (00_scope.md R8); `Y_INVERT`, `COLOR_OF_LINE` and `INIT_PLANES` are open parameters. -/
def Topology.tDual (yInvert : Bool) (colors : List (List LedColor)) (init : Nat) : Topology where
  width := 64
  height := 64
  rowsPerScan := 16
  addrBits := 4
  nChains := 2
  nPasses := 2
  lanes := [[⟨0, false, false⟩, ⟨16, false, false⟩], [⟨32, false, true⟩, ⟨48, false, true⟩]]
  yInvert := yInvert
  intervalBits := 16
  initPlanes := init
  colorOfLine := colors

/-- `T_HALF_A` (00_scope.md R9, not normative). R9 gives no `INTERVAL_BITS`: the 16 of R8 and D20 is taken. -/
def Topology.tHalfA (yInvert : Bool) (colors : List (List LedColor)) (init : Nat) : Topology where
  width := 64
  height := 32
  rowsPerScan := 32
  addrBits := 5
  nChains := 1
  nPasses := 1
  lanes := [[⟨0, false, false⟩]]
  yInvert := yInvert
  intervalBits := 16
  initPlanes := init
  colorOfLine := colors

/-- `T_HALF_B` (00_scope.md R9, not normative); `INTERVAL_BITS` as in `tHalfA`. -/
def Topology.tHalfB (yInvert : Bool) (colors : List (List LedColor)) (init : Nat) : Topology where
  width := 64
  height := 32
  rowsPerScan := 16
  addrBits := 4
  nChains := 2
  nPasses := 1
  lanes := [[⟨0, false, false⟩, ⟨16, false, false⟩]]
  yInvert := yInvert
  intervalBits := 16
  initPlanes := init
  colorOfLine := colors

/-- DESIGN CHOICE (log 2). The record of the block that `State.reset` is: `T_SINGLE`, `y` not inverted, wiring colours not told, free plane contents. -/
def Topology.panel : Topology := Topology.tSingle false [] 0

end Sys2Proof
end

