-- ==== Sys2Proof/Machine/State.lean ====
section
/-! DEFINITION. The state of one instance of the block (10_state.md R10), the ways a step can stop, and the state after reset (R23). -/

namespace Sys2Proof.Machine

/-- The output pin registers (10_state.md R19): each holds the last value written to it. -/
structure Pins where
  /-- `BLANK`: 1 = output disabled -/
  blank : Bit
  /-- `LAT`: 1 = latch enabled -/
  lat : Bit
  /-- `CLK`: 1 = high half of a shift-clock pulse -/
  clk : Bit
  /-- `ADDR`: the row-address bus, as the number it carries -/
  addr : Nat
  /-- `DATA[c]` for `c < T.N_CHAINS`, chain 0 first -/
  data : List Colour
  deriving DecidableEq, Repr

/-- One entry `(pin, v)` of the pin-event trace (40 R77). -/
inductive PinEvent where
  | blank (v : Bit)
  | lat (v : Bit)
  | clk (v : Bit)
  | addr (v : Nat)
  /-- the data lines of all chains, in one event (40 R77) -/
  | data (d : List Colour)
  deriving DecidableEq, Repr

/-- One move of a party outside the block (60_exceptions.md R145). -/
inductive Input where
  /-- the main-loop agent puts a word on the command port (30_encoding.md R51) -/
  | command (w : PortBits)
  /-- the Tick Source drives the `tick` wire (30_encoding.md R56) -/
  | tick (level : Bit)
  /-- the platform asserts `rst` (70 R150) -/
  | reset
  deriving DecidableEq, Repr

/-- The block raises no fault (60_exceptions.md R130; "There is no `fault` and no `stuck` treatment anywhere", 93_implementation_defined.md): no constructor. -/
inductive Fault where
  deriving DecidableEq, Repr

/-- Why the model gives an operation no meaning (60_exceptions.md R131). A refusal ends the run, so it is sticky. -/
inductive Refusal where
  /-- Raised by an arm of `exec` that has no meaning yet (none in this model). Safe. -/
  | notModelled (mnemonic : String)
  /-- Raised by `SETPIX` when `x >= T.WIDTH` or `y >= T.HEIGHT` (43 R113, 60 R131). Safe: the hardware does something, the model says nothing. -/
  | outOfRangePixel
  /-- Raised by every operation, and by every step, when `T` fails 00_scope.md R7 (60 R131). Safe. -/
  | illFormedTopology
  deriving DecidableEq, Repr

/-- The state of 10_state.md R10, with the topology record it is an instance of and the model's own observations and inputs. -/
structure State where
  /-- the topology record `T` (00_scope.md R6); no operation writes it (log 1) -/
  topo : Topology
  /-- `index`, the scan state (R11) -/
  index : Nat
  /-- `draw_sel` (R13) -/
  drawSel : Bit
  /-- `swap_pending` (R15) -/
  swapPending : Bit
  /-- `plane[0]` (R16): the bytes written since reset, by offset; the others are `topo`'s `INIT_PLANES[0]` (log 3) -/
  plane0 : List Host.Cell
  /-- `plane[1]` (R16): the bytes written since reset, by offset; the others are `topo`'s `INIT_PLANES[1]` (log 3) -/
  plane1 : List Host.Cell
  /-- `interval` (R17) -/
  interval : Nat
  /-- `tick_cnt` (R18) -/
  tickCnt : Nat
  /-- the output pins (R19) -/
  pins : Pins
  /-- `phase` (R20), the sequencer's counterpart of a program counter -/
  phase : BitVec 3
  /-- `pass` (R20), loop counter of `SHIFTROW` -/
  pass : Nat
  /-- `col` (R20), loop counter of `SHIFTROW` -/
  col : Nat
  /-- MODEL'S OWN: the pin-event trace since reset, oldest first (40 R77; log 8) -/
  trace : List PinEvent
  /-- MODEL'S OWN: the `RSP` words given since reset, oldest first (30_encoding.md R54; log 8) -/
  responses : List PortBits
  /-- MODEL'S OWN: the moves still to come, in the one total order of 20_memory.md R40 (log 6) -/
  inputs : List Input
  deriving DecidableEq, Repr

/-- The pins after reset (10_state.md R23, D10). -/
def Pins.reset (T : Topology) : Pins where
  blank := 1#1
  lat := 0#1
  clk := 0#1
  addr := 0
  data := List.replicate T.nChains 0#3

/-- The state after reset of a block of topology `T` (10_state.md R23): nothing written in the planes, nothing observed, no move to come. -/
def State.resetFor (T : Topology) : State where
  topo := T
  index := 0
  drawSel := 0#1
  swapPending := 0#1
  plane0 := []
  plane1 := []
  interval := 0
  tickCnt := 0
  pins := Pins.reset T
  phase := 0#3
  pass := 0
  col := 0
  trace := []
  responses := []
  inputs := []

/-- The machine right after reset (10_state.md R23), for the record of `Topology.panel` (log 2). -/
def State.reset : State := State.resetFor Topology.panel

end Sys2Proof.Machine
end

