-- ==== Sys2Proof/Machine/Ops.lean ====
section
/-! DEFINITION. The named operations over the planes, the registers, the pins and the response port (the pseudocode primitives of 00_scope.md R28), and the entry to and the end of a scan step (60_exceptions.md R136, R137). -/

namespace Sys2Proof.Machine

/-! ## The planes (20_memory.md R30) -/

/-- The canonical form of a plane's list: addresses strictly rising. An unlisted address holds no byte written since reset, so no entry can be
equal to what an unlisted address reads as (log 3). -/
abbrev Memory.wf (m : List Host.Cell) : Prop := m.Pairwise (fun a b => a.1 < b.1)

/-- The byte listed at an address; none where nothing was written since reset. -/
def Memory.lookup : List Host.Cell → Nat → Option Byte
  | [], _ => none
  | (b, v) :: rest, a => if b = a then some v else Memory.lookup rest a

/-- Store of one byte, keeping the canonical form. -/
def Memory.write : List Host.Cell → Nat → Byte → List Host.Cell
  | [], a, v => [(a, v)]
  | (b, w) :: rest, a, v =>
    if a < b then (a, v) :: (b, w) :: rest
    else if a = b then (a, v) :: rest
    else (b, w) :: Memory.write rest a v

/-- Plane `sel` (10_state.md R16). -/
def State.plane (s : State) (sel : Bit) : List Host.Cell := if sel = 0#1 then s.plane0 else s.plane1

/-- `MemRead(sel, off, 1)` (20_memory.md R30): the last byte written to that offset (R46), before any write the reset contents (10_state.md R23). -/
def State.memRead (s : State) (sel : Bit) (off : Nat) : Byte :=
  (Memory.lookup (s.plane sel) off).getD (Config.initPlanes s.topo.initPlanes sel off)

/-- `MemWrite(sel, off, 1, v)` (20_memory.md R30): sets that byte and changes nothing else. -/
def State.memWrite (s : State) (sel : Bit) (off : Nat) (v : Byte) : State :=
  if sel = 0#1 then { s with plane0 := Memory.write s.plane0 off v }
  else { s with plane1 := Memory.write s.plane1 off v }

/-! ## The registers -/

/-- `display_sel` is `draw_sel ^ 1` at every instant (10_state.md R14). -/
def State.displaySel (s : State) : Bit := s.drawSel ^^^ 1#1

/-- `index <- v` -/
def State.setIndex (s : State) (v : Nat) : State := { s with index := v }

/-- `interval <- n`, `tick_cnt <- 0` as one action (44 R120). -/
def State.setInterval (s : State) (n : Nat) : State := { s with interval := n, tickCnt := 0 }

/-- `tick_cnt <- v` -/
def State.setTickCnt (s : State) (v : Nat) : State := { s with tickCnt := v }

/-- `phase <- p` (10_state.md R20) -/
def State.setPhase (s : State) (p : BitVec 3) : State := { s with phase := p }

/-- `pass <- p`, `col <- k` (10_state.md R20) -/
def State.setLoop (s : State) (p k : Nat) : State := { s with pass := p, col := k }

/-! ## The pins: each write appends one entry to the trace (00_scope.md R28 `pin <- v`, 40 R77) -/

/-- `BLANK <- v` -/
def State.driveBlank (s : State) (v : Bit) : State :=
  { s with pins := { s.pins with blank := v }, trace := s.trace ++ [.blank v] }

/-- `LAT <- v` -/
def State.driveLat (s : State) (v : Bit) : State :=
  { s with pins := { s.pins with lat := v }, trace := s.trace ++ [.lat v] }

/-- `CLK <- v` -/
def State.driveClk (s : State) (v : Bit) : State :=
  { s with pins := { s.pins with clk := v }, trace := s.trace ++ [.clk v] }

/-- `ADDR <- a`, all bits in one event (40 R73). -/
def State.driveAddr (s : State) (a : Nat) : State :=
  { s with pins := { s.pins with addr := a }, trace := s.trace ++ [.addr a] }

/-- `DATA[c] <- d[c]` for every chain, as one event (41 R85). -/
def State.driveData (s : State) (d : List Colour) : State :=
  { s with pins := { s.pins with data := d }, trace := s.trace ++ [.data d] }

/-! ## The response port -/

/-- `respond(w)` (00_scope.md R28): a word returned to the main-loop agent. -/
def State.respond (s : State) (w : PortBits) : State := { s with responses := s.responses ++ [w] }

/-! ## Entry to and end of a scan step: the block's only interrupt (60_exceptions.md R133 to R137) -/

/-- Entry (60_exceptions.md R136): nothing is saved, no mode bit and no vector is used; "control is simply at `phase = 1`". -/
def State.enterScanStep (s : State) : State := s.setPhase 1#3

/-- End (60_exceptions.md R137): `phase <- 0`; "there is no return instruction and nothing to restore". -/
def State.leaveScanStep (s : State) : State := s.setPhase 0#3

/-! ## How an operation completes -/

/-- An operation runs only on a well-formed topology (00_scope.md R7, 60_exceptions.md R131). -/
def whenWellFormed (s : State) (r : Host.Outcome State Fault Refusal) : Host.Outcome State Fault Refusal :=
  if s.topo.wf = true then r else .refused .illFormedTopology

/-- An operation that cannot fail on a well-formed topology (60_exceptions.md R130 "Every operation completes"). -/
def completes (f : State → State) (s : State) : Host.Outcome State Fault Refusal :=
  whenWellFormed s (.next (f s))

end Sys2Proof.Machine
end

