-- ==== Sys2Proof/Machine/Operands.lean ====
section
/-! DEFINITION. Operand computations: the coordinate transform, the colour mask and the layout (`SETPIX`), the row and the column of a lane and the colour code on a chain (`SHIFTROW`), the interval operand (`REGPER`). -/

namespace Sys2Proof

/-- `off(r, x) = r * WIDTH + x` (20_memory.md R31). -/
def Topology.pixelOffset (T : Topology) (r x : Nat) : Nat := r * T.width + x

/-- The buffer row of coordinate `y` (43 R111). -/
def Topology.bufferRow (T : Topology) (y : Nat) : Nat := if T.yInvert then T.height - 1 - y else y

/-- `row(p, c, index)` (41 R86). -/
def Topology.laneRow (T : Topology) (p c index : Nat) : Nat :=
  if (T.lane p c).rowRev then (T.lane p c).rowBase + (T.rowsPerScan - 1 - index)
  else (T.lane p c).rowBase + index

/-- `column(p, c, k)` (41 R87). -/
def Topology.laneColumn (T : Topology) (p c k : Nat) : Nat :=
  if (T.lane p c).colRev then T.width - 1 - k else k

/-- The value `REGPER n` leaves in the interval register: `n` where the register has a place for it (44 R120), else a value the spec does not
state (log 5). -/
def Topology.intervalValue (T : Topology) (n : Nat) : Nat :=
  if n < 2 ^ T.intervalBits then n else Config.narrowInterval T n % 2 ^ T.intervalBits

/-- The colour code of a byte: its low 3 bits (20_memory.md R32). -/
def colourOf (b : Byte) : Colour := b.extractLsb' 0 3

/-- `zext_8(c[2:0])`: the byte `SETPIX` stores (43 R112). -/
def storedColour (c : Byte) : Byte := (colourOf c).setWidth 8

end Sys2Proof

namespace Sys2Proof.Machine

/-- `d(p, c, k)`: the colour code of chain `c` at clock pulse `k` of pass `p` (41 R85 to R88). -/
def State.lineValue (s : State) (p c k : Nat) : Colour :=
  colourOf (s.memRead s.displaySel (s.topo.pixelOffset (s.topo.laneRow p c s.index) (s.topo.laneColumn p c k)))

/-- What all chains carry at clock pulse `k` of pass `p`, chain 0 first (41 R85). -/
def State.presented (s : State) (p k : Nat) : List Colour :=
  (List.range s.topo.nChains).map (fun c => s.lineValue p c k)

end Sys2Proof.Machine
end

