-- ==== Sys2Proof/Machine/PixelWrite.lean ====
section
/-! DEFINITION. The pixel write interface: `SETPIX` (43_pixel_write_interface.md). -/

namespace Sys2Proof.Machine

/-- The store of an in-range `SETPIX` (43 R110): the draw plane is resolved when the command executes. -/
def State.storePixel (s : State) (x y : Nat) (c : Byte) : State :=
  s.memWrite s.drawSel (s.topo.pixelOffset (s.topo.bufferRow y) x) (storedColour c)

/-- `SETPIX x, y, c` (43 R110, R113). -/
def execSetpix (x y : Nat) (c : Byte) (s : State) : Host.Outcome State Fault Refusal :=
  whenWellFormed s
    (if s.topo.width ≤ x ∨ s.topo.height ≤ y then .refused .outOfRangePixel else .next (s.storePixel x y c))

end Sys2Proof.Machine
end

