-- ==== Sys2Proof/Machine/Flags.lean ====
section
/-! DEFINITION. The one flag of the block, `swap_pending` (10_state.md R15): who sets it, when it is due, and the exchange that clears it. -/

namespace Sys2Proof.Machine

/-- `swap_pending <- 1` (42 R100). -/
def State.requestSwap (s : State) : State := { s with swapPending := 1#1 }

/-- "`index == 0` and a swap is pending" (42 R102). -/
def State.swapDue (s : State) : Bool := s.index == 0 && s.swapPending == 1#1

/-- The two writes of the exchange as one action (42 R102, 20_memory.md R44). -/
def State.exchangeRoles (s : State) : State := { s with drawSel := s.drawSel ^^^ 1#1, swapPending := 0#1 }

end Sys2Proof.Machine
end

