-- ==== Sys2Proof/Machine/Arbiter.lean ====
section
/-! DEFINITION. The dual frame buffer arbiter: `SWAPREQ`, `DRAWBUF`, `SWAPCHK` (42_dual_framebuffer_arbiter.md). -/

namespace Sys2Proof.Machine

/-- `respond(zext_32(draw_sel))` (42 R101, 30_encoding.md R54). -/
def State.answerDrawBuffer (s : State) : State := s.respond (s.drawSel.setWidth 32)

/-- Step 3 of the scan step (42 R102). -/
def State.swapCheck (s : State) : State := if s.swapDue then s.exchangeRoles else s

/-- `SWAPREQ` (42 R100). -/
def execSwapreq (s : State) : Host.Outcome State Fault Refusal := completes State.requestSwap s

/-- `DRAWBUF` (42 R101). -/
def execDrawbuf (s : State) : Host.Outcome State Fault Refusal := completes State.answerDrawBuffer s

/-- `SWAPCHK` (42 R102). -/
def execSwapchk (s : State) : Host.Outcome State Fault Refusal := completes State.swapCheck s

end Sys2Proof.Machine
end

