-- ==== Sys2Proof/Machine/Shifter.lean ====
section
/-! DEFINITION. The shift register multiplexer: `SHIFTROW` (41_shift_register_multiplexer.md). -/

namespace Sys2Proof.Machine

/-- One clock pulse at the loop counters `pass`, `col` (41 R85): present the colour codes, `CLK <- 1`, `CLK <- 0`. -/
def State.clockPulse (s : State) : State :=
  ((s.driveData (s.presented s.pass s.col)).driveClk 1#1).driveClk 0#1

/-- One pass: a clock pulse for each of the `WIDTH` columns (41 R85). -/
def State.shiftPass (s : State) (p : Nat) : State :=
  (List.range s.topo.width).foldl (fun s k => (s.setLoop p k).clockPulse) s

/-- Step 5 of the scan step (41 R85). -/
def State.shiftRows (s : State) : State :=
  ((List.range s.topo.nPasses).foldl State.shiftPass (s.driveLat 0#1)).setLoop 0 0

/-- `SHIFTROW` (41 R85). -/
def execShiftrow (s : State) : Host.Outcome State Fault Refusal := completes State.shiftRows s

end Sys2Proof.Machine
end

