-- ==== Sys2Proof/Machine/Sequencer.lean ====
section
/-! DEFINITION. The row strobe sequencer: `BLANK`, `ADVANCE`, `SETADDR`, `LATCH`, `UNBLANK`, and the macro `SCANSTEP` (40_row_strobe_sequencer.md). -/

namespace Sys2Proof.Machine

/-- Step 1 (40 R71). -/
def State.assertBlank (s : State) : State := s.driveBlank 1#1

/-- Step 2 (40 R72): `index <- (index + 1) mod ROWS_PER_SCAN`. -/
def State.advanceIndex (s : State) : State := s.setIndex ((s.index + 1) % s.topo.rowsPerScan)

/-- Step 4 (40 R73): `ADDR[b] <- index[b]` for every `b` below `ADDR_BITS`, so the low `ADDR_BITS` bits of `index`. -/
def State.setRowAddress (s : State) : State := s.driveAddr (s.index % 2 ^ s.topo.addrBits)

/-- Step 6 (40 R74): `LAT <- 1 ; LAT <- 0`. -/
def State.pulseLatch (s : State) : State := (s.driveLat 1#1).driveLat 0#1

/-- Step 7 (40 R75). -/
def State.releaseBlank (s : State) : State := s.driveBlank 0#1

/-- `SCANSTEP` (40 R70): the seven micro-operations in their fixed order, each at its phase. -/
def State.scanStep (s : State) : State :=
  s.enterScanStep.assertBlank
    |>.setPhase 2#3 |>.advanceIndex
    |>.setPhase 3#3 |>.swapCheck
    |>.setPhase 4#3 |>.setRowAddress
    |>.setPhase 5#3 |>.shiftRows
    |>.setPhase 6#3 |>.pulseLatch
    |>.setPhase 7#3 |>.releaseBlank
    |>.leaveScanStep

/-- `BLANK` (40 R71). -/
def execBlank (s : State) : Host.Outcome State Fault Refusal := completes State.assertBlank s

/-- `ADVANCE` (40 R72). -/
def execAdvance (s : State) : Host.Outcome State Fault Refusal := completes State.advanceIndex s

/-- `SETADDR` (40 R73). -/
def execSetaddr (s : State) : Host.Outcome State Fault Refusal := completes State.setRowAddress s

/-- `LATCH` (40 R74). -/
def execLatch (s : State) : Host.Outcome State Fault Refusal := completes State.pulseLatch s

/-- `UNBLANK` (40 R75). -/
def execUnblank (s : State) : Host.Outcome State Fault Refusal := completes State.releaseBlank s

end Sys2Proof.Machine
end

