-- ==== Sys2Proof/Machine/TickSource.lean ====
section
/-! DEFINITION. The boundary to the Tick Source: `REGPER`, `TICK` (44_tick_integration.md). -/

namespace Sys2Proof.Machine

/-- `REGPER n` (44 R120): both writes as one action. -/
def State.register (s : State) (n : Nat) : State := s.setInterval (s.topo.intervalValue n)

/-- `TICK` (44 R121): nothing when disabled; else count, and on reaching the interval clear the count and run the scan step whole. -/
def State.tickOnce (s : State) : State :=
  if s.interval = 0 then s
  else if s.interval ≤ s.tickCnt + 1 then (s.setTickCnt 0).scanStep
  else s.setTickCnt (s.tickCnt + 1)

/-- `REGPER n` (44 R120). -/
def execRegper (n : Nat) (s : State) : Host.Outcome State Fault Refusal := completes (fun s => s.register n) s

/-- `TICK` (44 R121). -/
def execTick (s : State) : Host.Outcome State Fault Refusal := completes State.tickOnce s

end Sys2Proof.Machine
end

