-- ==== Sys2Proof/Machine/Dispatch.lean ====
section
/-! DEFINITION. One arm per operation (00_scope.md R3). -/

namespace Sys2Proof.Machine

def exec (i : Instr) (s : State) : Host.Outcome State Fault Refusal :=
  match i with
  | .setpix x y c => Sys2Proof.Machine.execSetpix x y c s
  | .swapreq => Sys2Proof.Machine.execSwapreq s
  | .drawbuf => Sys2Proof.Machine.execDrawbuf s
  | .regper n => Sys2Proof.Machine.execRegper n s
  | .tick => Sys2Proof.Machine.execTick s
  | .blank => Sys2Proof.Machine.execBlank s
  | .advance => Sys2Proof.Machine.execAdvance s
  | .swapchk => Sys2Proof.Machine.execSwapchk s
  | .setaddr => Sys2Proof.Machine.execSetaddr s
  | .shiftrow => Sys2Proof.Machine.execShiftrow s
  | .latch => Sys2Proof.Machine.execLatch s
  | .unblank => Sys2Proof.Machine.execUnblank s

end Sys2Proof.Machine
end

