-- ==== Sys2Proof/Machine/Fetch.lean ====
section
/-! DEFINITION. Where the next operation comes from: the moves of the parties outside the block in their one total order (20_memory.md R40), or, inside a scan step, the sequencer's `phase` (30_encoding.md R57). -/

namespace Sys2Proof.Machine

/-- What happens next. -/
inductive Fetched where
  /-- a word on one of the three interfaces, and the state that is past it -/
  | word (w : PortWord) (past : State)
  /-- `rst` is asserted; the moves after it -/
  | resetLine (rest : List Input)
  /-- nothing: between scan steps, and no party moves (log 7) -/
  | nothing
  deriving DecidableEq, Repr

/-- The micro-operation at `phase`, and the state past it: `phase` goes on to the next step, from 7 to 0 (40 R70, 10_state.md R20; log 9). -/
def State.fetchMicro (s : State) : Fetched := .word (.uop s.phase) (s.setPhase (s.phase + 1#3))

/-- `rst` comes before anything else (70 R150, log 12). Inside a scan step (`phase` not 0) no other move is taken (20_memory.md R40, 60 R137). -/
def State.fetch (s : State) : Fetched :=
  match s.inputs with
  | .reset :: rest => .resetLine rest
  | .command w :: rest => if s.phase = 0#3 then .word (.cmd w) { s with inputs := rest } else s.fetchMicro
  | .tick level :: rest => if s.phase = 0#3 then .word (.evt level) { s with inputs := rest } else s.fetchMicro
  | [] => if s.phase = 0#3 then .nothing else s.fetchMicro

/-- A word that is an operation runs; a reserved command word, a `tick` at 0 and the idle phase change nothing (30_encoding.md R56, R57, R60). -/
def runWord (w : PortWord) (past : State) : Host.Outcome State Fault Refusal :=
  match decode w with
  | .operation i => exec i past
  | .rejected _ => .next past

/-- `rst` (70 R150): every piece of state takes its reset value; the topology stays (10_state.md R21) and so do the moves still to come. -/
def State.afterReset (s : State) (rest : List Input) : State := { State.resetFor s.topo with inputs := rest }

/-- One step of whichever party moves next. -/
def stepOn (s : State) : Fetched → Host.Outcome State Fault Refusal
  | .word w past => runWord w past
  | .resetLine rest => .next (s.afterReset rest)
  | .nothing => .next s

/-- A word put where the next fetch reads it: on its port, ahead of every other move, or in `phase`. -/
def State.placeWord (s : State) : PortWord → State
  | .cmd w => { s with phase := 0#3, inputs := .command w :: s.inputs }
  | .evt level => { s with phase := 0#3, inputs := .tick level :: s.inputs }
  | .uop code => { s with phase := code, inputs := s.inputs.dropWhile (fun i => i == .reset) }

end Sys2Proof.Machine
end

