-- ==== Sys2Proof/Machine/Step.lean ====
section
/-! DEFINITION. One step of the block, and a table word placed for it. -/

namespace Sys2Proof.Machine

/-- One step: nothing runs on an ill-formed topology (60_exceptions.md R131); else what `fetch` finds next. -/
def step (s : State) : Host.Outcome State Fault Refusal := whenWellFormed s (stepOn s s.fetch)

/-- `s` with a word of spec/opcode_table.json placed so that the very next `step` runs it (log 6, log 13). -/
def State.withFetchWord (s : State) (nbits w : Nat) : State :=
  match tableWord nbits w with
  | none => s
  | some p => s.placeWord p

end Sys2Proof.Machine
end

