-- ==== Sys2Proof/Machine/Observe.lean ====
section
/-! DEFINITION. What can be seen at the pins: the trace of a scan step (40 R77), its counts (R78), the protocol of R80, the scan record (R81) and the pin word (30_encoding.md R58). -/

namespace Sys2Proof.Machine

/-- What one event does to the pins. -/
def Pins.apply (p : Pins) : PinEvent → Pins
  | .blank v => { p with blank := v }
  | .lat v => { p with lat := v }
  | .clk v => { p with clk := v }
  | .addr a => { p with addr := a }
  | .data d => { p with data := d }

/-- The pins after a trace. -/
def Pins.replay (p : Pins) (tr : List PinEvent) : Pins := tr.foldl Pins.apply p

/-- The three events of one clock pulse (40 R77). -/
def pulseEvents (d : List Colour) : List PinEvent := [.data d, .clk 1#1, .clk 0#1]

/-- The events of one pass of `SHIFTROW` (40 R77). -/
def State.passEvents (s : State) (p : Nat) : List PinEvent :=
  (List.range s.topo.width).flatMap (fun k => pulseEvents (s.presented p k))

/-- The events of `SHIFTROW` in a state whose `index` and roles are already those of the step (40 R77). -/
def State.shiftEvents (s : State) : List PinEvent :=
  .lat 0#1 :: (List.range s.topo.nPasses).flatMap s.passEvents

/-- The events of a scan step, from the state in which its rows are shifted (40 R77). -/
def State.scanEvents (s : State) : List PinEvent :=
  [.blank 1#1, .addr s.index] ++ s.shiftEvents ++ [.lat 1#1, .lat 0#1, .blank 0#1]

/-- What chains carry at the last clock pulse of a scan step. -/
def State.lastPresented (s : State) : List Colour := s.presented (s.topo.nPasses - 1) (s.topo.width - 1)

/-- An event keeps the protocol of 40 R80: `CLK` rises only while `BLANK = 1` and `LAT = 0`; `DATA` changes only while `CLK = 0`; `ADDR` changes
only while `BLANK = 1`; `LAT` rises only while `BLANK = 1` and `CLK = 0`. -/
def Pins.allows (p : Pins) : PinEvent → Bool
  | .blank _ => true
  | .lat v => !(p.lat == 0#1 && v == 1#1) || (p.blank == 1#1 && p.clk == 0#1)
  | .clk v => !(p.clk == 0#1 && v == 1#1) || (p.blank == 1#1 && p.lat == 0#1)
  | .addr a => a == p.addr || p.blank == 1#1
  | .data d => d == p.data || p.clk == 0#1

/-- Every event of a trace keeps the protocol of 40 R80. -/
def Pins.protocol : Pins → List PinEvent → Bool
  | _, [] => true
  | p, e :: es => p.allows e && Pins.protocol (p.apply e) es

/-- The colour codes standing on the data lines at each rising edge of `CLK` (40 R81). -/
def Pins.sampled : Pins → List PinEvent → List (List Colour)
  | _, [] => []
  | p, e :: es =>
    (if e = .clk 1#1 ∧ p.clk = 0#1 then [p.data] else []) ++ Pins.sampled (p.apply e) es

/-- The scan record of 40 R81. -/
structure ScanRecord where
  addr : Nat
  sel : Bit
  shift : List (List Colour)
  deriving DecidableEq, Repr

/-- The scan record of a scan step, from the state in which its rows are shifted (40 R81). -/
def State.scanRecord (s : State) : ScanRecord where
  addr := s.index
  sel := s.displaySel
  shift := (List.range s.topo.nPasses).flatMap (fun p => (List.range s.topo.width).map (fun k => s.presented p k))

/-- The event drives the row address: there is exactly one such event in a scan step (40 R78). -/
def PinEvent.isAddr : PinEvent → Bool
  | .addr _ => true
  | .blank _ => false
  | .lat _ => false
  | .clk _ => false
  | .data _ => false

/-- How many pixel values the event puts on the data lines: one per chain (41 R89). -/
def PinEvent.pixelValues : PinEvent → Nat
  | .data d => d.length
  | .blank _ => 0
  | .lat _ => 0
  | .clk _ => 0
  | .addr _ => 0

/-- How many pixel values a trace presents (40 R78). -/
def pixelValuesIn (tr : List PinEvent) : Nat := (tr.map PinEvent.pixelValues).sum

/-- How many scan steps a trace holds (40 R78: "address writes 1"). -/
def scanStepsIn (tr : List PinEvent) : Nat := tr.countP PinEvent.isAddr

/-- The `PINS` packing of 30_encoding.md R58. -/
def Pins.word (p : Pins) : BitVec 16 :=
  0#2 ++ p.data.getD 1 0#3 ++ p.data.getD 0 0#3 ++ BitVec.ofNat 5 p.addr ++ p.clk ++ p.lat ++ p.blank

end Sys2Proof.Machine
end

