-- ==== Sys2Proof/Machine/Sink.lean ====
section
/-! DEFINITION. The reference sink of 41 R93: the spec's own model of the panel side, "for tests only"; nothing in the block depends on it. -/

namespace Sys2Proof.Machine

/-- The sink: the pins as it sees them, one shift register and one output stage per chain, cell 0 first, and what is lit. -/
structure Sink where
  pins : Pins
  sr : List (List Colour)
  out : List (List Colour)
  lit : Option (Nat × List (List Colour))
  deriving DecidableEq, Repr

/-- "the pair (ADDR, out) when BLANK = 0, else nothing" (41 R93). -/
def Sink.relight (k : Sink) : Sink :=
  { k with lit := if k.pins.blank = 0#1 then some (k.pins.addr, k.out) else none }

/-- One place on: `sr[j] <- sr[j-1]` from the top down to 1, `sr[0] <- d` (41 R93). -/
def shiftIn (d : Colour) (cells : List Colour) : List Colour := (d :: cells).dropLast

/-- What the sink does on one pin event (41 R93). -/
def Sink.on (k : Sink) (e : PinEvent) : Sink :=
  match e with
  | .clk v =>
    if v = 1#1 then
      { k with pins := k.pins.apply e, sr := List.zipWith shiftIn k.pins.data k.sr }
    else { k with pins := k.pins.apply e }
  | .lat v =>
    if v = 1#1 then { k with pins := k.pins.apply e, out := k.sr } else { k with pins := k.pins.apply e }
  | .blank _ => { k with pins := k.pins.apply e }.relight
  | .addr _ => { k with pins := k.pins.apply e }.relight
  | .data _ => { k with pins := k.pins.apply e }

/-- The sink after a trace. -/
def Sink.run (k : Sink) (tr : List PinEvent) : Sink := tr.foldl Sink.on k

/-- The sink has one register of `N_PASSES * WIDTH` cells per chain (41 R93). -/
def Sink.fits (k : Sink) (T : Topology) : Bool :=
  k.sr.length == T.nChains && k.sr.all (fun cells => cells.length == T.nPasses * T.width)

end Sys2Proof.Machine
end

