-- ==== Sys2Proof/Machine/Listing.lean ====
section
/-! DEFINITION. Listings of operations as moves (30_encoding.md R62), and the pseudo-operations of R63 that an agent can issue. -/

namespace Sys2Proof.Machine

/-- The move that issues an operation; a micro-operation is issued by no agent (30_encoding.md R63). DESIGN CHOICE (log 22): an operation that has
no word, an operand being too wide for its field, is not issued. -/
def issue (i : Instr) : Option Input :=
  if i.wellFormed then
    match encode i with
    | .cmd w => some (.command w)
    | .evt level => some (.tick level)
    | .uop _ => none
  else none

/-- A listing is one interleaving of the two agents' moves (30_encoding.md R62). -/
def listing (is : List Instr) : List Input := is.filterMap issue

/-- `TICKS k` (30_encoding.md R63). -/
def ticks (k : Nat) : List Instr := List.replicate k .tick

/-- `FILL c` (30_encoding.md R63): `WIDTH * HEIGHT` operations; those at a coordinate of 1024 or more have no word (log 22). -/
def fill (T : Topology) (c : Byte) : List Instr :=
  (List.range T.height).flatMap (fun y => (List.range T.width).map (fun x => .setpix x y c))

/-- `DISABLE` (30_encoding.md R63). -/
def disable : List Instr := [.regper 0]

end Sys2Proof.Machine
end

