-- ==== Sys2Proof/Safety.lean ====
section
/-! DEFINITION. What claims are stated in: the invariant of the block, and the duties of the parties outside it (70 R160 to R163, 60_exceptions.md R145). -/

namespace Sys2Proof.Machine

/-- The outcome is a next state. -/
def completed (r : Host.Outcome State Fault Refusal) : Option State :=
  match r with
  | .next t => some t
  | .fault _ => none
  | .refused _ => none

/-- `k` steps of the block, as the host runs it; a refusal ends the run (60_exceptions.md R131 "sticky"). -/
def runSteps (k : Nat) (s : State) : Host.Outcome State Fault Refusal := Host.Core.run Sys2Proof.core k s

/-- The cells of a plane lie in it and hold stored colours (20_memory.md R30, R32: `SETPIX` stores bits `[7:3]` as 0). -/
def planeFits (T : Topology) (m : List Host.Cell) : Bool :=
  m.all (fun cell => decide (cell.1 < T.planeSize) && decide (cell.2.toNat < 8))

/-- The invariant of every state of the block between two steps. -/
structure State.Inv (s : State) : Prop where
  /-- 00_scope.md R7 -/
  topo_wf : s.topo.wf = true
  /-- 10_state.md R11 -/
  index_lt : s.index < s.topo.rowsPerScan
  /-- 10_state.md R17 -/
  interval_lt : s.interval < 2 ^ s.topo.intervalBits
  /-- 10_state.md R18 -/
  count_lt : s.interval ≠ 0 → s.tickCnt < s.interval
  /-- 10_state.md R18 -/
  count_idle : s.interval = 0 → s.tickCnt = 0
  /-- the planes keep their canonical form -/
  plane0_wf : Memory.wf s.plane0
  plane1_wf : Memory.wf s.plane1
  /-- 20_memory.md R30, R32 -/
  plane0_fits : planeFits s.topo s.plane0 = true
  plane1_fits : planeFits s.topo s.plane1 = true
  /-- one entry of `DATA` per chain (10_state.md R10) -/
  data_length : s.pins.data.length = s.topo.nChains
  /-- the loop counters are 0 between operations (10_state.md R20) -/
  loop_idle : s.pass = 0 ∧ s.col = 0
  /-- 40 R80: `LAT = 0`, `CLK = 0` between operations -/
  lat_low : s.pins.lat = 0#1
  clk_low : s.pins.clk = 0#1
  /-- 60_exceptions.md R144: `ADDR = index`, but between `ADVANCE` and `SETADDR` -/
  addr_index : s.phase ≠ 3#3 → s.phase ≠ 4#3 → s.pins.addr = s.index
  /-- 40 R71: blank from `BLANK` until `UNBLANK` -/
  blank_inside : s.phase ≠ 0#3 → s.phase ≠ 1#3 → s.pins.blank = 1#1
  /-- 40 R80: between two scan steps `BLANK = 0`; before the first it is still 1 (10_state.md R23) -/
  blank_outside : s.phase = 0#3 → s.pins.blank = 0#1 ∨ s.trace = []
  /-- the pins hold what the trace since reset left (10_state.md R19, 40 R77) -/
  pins_replay : (Pins.reset s.topo).replay s.trace = s.pins
  /-- 40 R80, "holding in every trace" -/
  protocol : (Pins.reset s.topo).protocol s.trace = true

/-- No `rst` among the moves to come. -/
def noReset (is : List Input) : Bool := is.all (fun i => !(i == .reset))

/-- The move is a `SETPIX` command. -/
def Input.draws (i : Input) : Bool :=
  match i with
  | .command w => cmdOp w == 0x1#4
  | .tick _ => false
  | .reset => false

/-- 70 R160: every `SETPIX` among the moves is in bounds. -/
def inBounds (T : Topology) (is : List Input) : Bool :=
  is.all (fun i =>
    match i with
    | .command w => !(cmdOp w == 0x1#4) || (decide ((cmdX w).toNat < T.width) && decide ((cmdY w).toNat < T.height))
    | .tick _ => true
    | .reset => true)

/-- 70 R161: no `SETPIX` among the moves. -/
def noDrawing (is : List Input) : Bool := is.all (fun i => !i.draws)

/-- Two states agree on the whole of plane `sel` as reads see it. -/
def samePlane (s t : State) (sel : Bit) : Prop := ∀ off, t.memRead sel off = s.memRead sel off

end Sys2Proof.Machine
end

