-- ==== Sys2Proof/Certificates/Slice0/Obligations.lean ====
section
/-! DEFINITION. The statements for the provers, from the numbered rules of spec/. A statement that rests on a choice of the model's names its log entry. -/

open Sys2Proof Sys2Proof.Machine

/-! ## Encodings -/

/-- 95_test_vectors.md L2.1: words written out from the encodings, and what they are. -/
def Obligations.WorkedWordsDecode : Prop :=
  decode (.cmd 0x10500000#32) = .operation (.setpix 0 0 5#8) ∧
  decode (.cmd 0x1070FC3F#32) = .operation (.setpix 63 63 7#8) ∧
  decode (.cmd 0x1060A00A#32) = .operation (.setpix 10 40 6#8) ∧
  decode (.cmd 0x1FD00803#32) = .operation (.setpix 3 2 0xFD#8) ∧
  decode (.cmd 0x20000000#32) = .operation .swapreq ∧
  decode (.cmd 0x30000000#32) = .operation .drawbuf ∧
  decode (.cmd 0x40000004#32) = .operation (.regper 4) ∧
  decode (.cmd 0x4000FFFF#32) = .operation (.regper 65535) ∧
  decode (.evt 1#1) = .operation .tick ∧
  decode (.uop 0b001#3) = .operation .blank ∧
  decode (.uop 0b010#3) = .operation .advance ∧
  decode (.uop 0b011#3) = .operation .swapchk ∧
  decode (.uop 0b100#3) = .operation .setaddr ∧
  decode (.uop 0b101#3) = .operation .shiftrow ∧
  decode (.uop 0b110#3) = .operation .latch ∧
  decode (.uop 0b111#3) = .operation .unblank ∧
  decode (.cmd 0x00000000#32) = .rejected .reservedCommand ∧
  decode (.cmd 0x20000001#32) = .rejected .reservedCommand ∧
  decode (.cmd 0x40010000#32) = .rejected .reservedCommand

/-- Decoding the word of a well-formed operation gives it back, every operand at every value its field admits (30_encoding.md R52 to R57). -/
def Obligations.DecodeOfEncodeIsIdentity : Prop :=
  ∀ i : Instr, i.wellFormed = true → decode (encode i) = .operation i

/-- A word that is an operation is the word of that operation, and the operation is well formed: each word has one meaning (30_encoding.md R61). -/
def Obligations.EncodeOfDecodeIsIdentity : Prop :=
  ∀ (w : PortWord) (i : Instr), decode w = .operation i → i.wellFormed = true ∧ encode i = w

/-- 30_encoding.md R52: the word of `SETPIX x, y, c`, and every word with `op` 1 is a `SETPIX` whose fields are its bits, zero-extended. -/
def Obligations.SetpixWordLayout : Prop :=
  (∀ (x y : Nat) (c : Byte), x < 2 ^ 10 → y < 2 ^ 10 →
    encode (.setpix x y c) =
      .cmd (0x10000000#32 ||| (c.setWidth 32 <<< 20) ||| (BitVec.ofNat 32 y <<< 10) ||| BitVec.ofNat 32 x)) ∧
  (∀ w : PortBits, w &&& 0xF0000000#32 = 0x10000000#32 →
    decode (.cmd w) = .operation
      (.setpix (w.toNat % 2 ^ 10) (w.toNat / 2 ^ 10 % 2 ^ 10) (BitVec.ofNat 8 (w.toNat / 2 ^ 20))))

/-- 30_encoding.md R55 and R53, R54: the words of the other three commands, and every word with their match and mask is theirs; `DRAWBUF` is the only
operation with a response, a word of format `RSP`. -/
def Obligations.OtherCommandWordLayouts : Prop :=
  (∀ n : Nat, n < 2 ^ 16 → encode (.regper n) = .cmd (0x40000000#32 ||| BitVec.ofNat 32 n)) ∧
  (∀ w : PortBits, w &&& 0xFFFF0000#32 = 0x40000000#32 → decode (.cmd w) = .operation (.regper (w.toNat % 2 ^ 16))) ∧
  encode .swapreq = .cmd 0x20000000#32 ∧ encode .drawbuf = .cmd 0x30000000#32 ∧
  (∀ w : PortBits, w &&& 0xFFFFFFFF#32 = 0x20000000#32 → decode (.cmd w) = .operation .swapreq) ∧
  (∀ w : PortBits, w &&& 0xFFFFFFFF#32 = 0x30000000#32 → decode (.cmd w) = .operation .drawbuf) ∧
  (∀ s : State, s.topo.wf = true → ∃ (t : State) (r : PortBits), exec .drawbuf s = .next t ∧ t.responses = s.responses ++ [r] ∧
    r.extractLsb' 1 31 = 0#31 ∧ r.extractLsb' 0 1 = s.drawSel) ∧
  (∀ (i : Instr) (s t : State), i ≠ .drawbuf → exec i s = .next t → t.responses = s.responses)

/-- 30_encoding.md R60: which command words are reserved, that the block ignores them (no state changes, no response), and that every word
with `op` 1 is a `SETPIX`. -/
def Obligations.ReservedCommandsAreIgnored : Prop :=
  ∀ w : PortBits,
    (decode (.cmd w) = .rejected .reservedCommand ↔
      (w.toNat / 2 ^ 28 = 0 ∨ 5 ≤ w.toNat / 2 ^ 28) ∨
      ((w.toNat / 2 ^ 28 = 2 ∨ w.toNat / 2 ^ 28 = 3) ∧ w.toNat % 2 ^ 28 ≠ 0) ∨
      (w.toNat / 2 ^ 28 = 4 ∧ w.toNat / 2 ^ 16 % 2 ^ 12 ≠ 0)) ∧
    (decode (.cmd w) = .rejected .reservedCommand →
      ∀ (s : State) (rest : List Input), s.topo.wf = true → s.phase = 0#3 → s.inputs = .command w :: rest →
        step s = .next { s with inputs := rest }) ∧
    (w.toNat / 2 ^ 28 = 1 → ∃ x y c, decode (.cmd w) = .operation (.setpix x y c))

/-- 30_encoding.md R61: no two rows of the table match one word; a command word is an operation exactly when a row matches, and then it is that
row's. -/
def Obligations.CommandRowsDecideTheDecoder : Prop :=
  ∀ w : PortBits,
    (∀ r ∈ cmdRows, ∀ r' ∈ cmdRows, r.fits w = true → r'.fits w = true → r = r') ∧
    (∀ i, decode (.cmd w) = .operation i → ∃ r ∈ cmdRows, r.mnemonic = i.mnemonic ∧ r.fits w = true) ∧
    (∀ r ∈ cmdRows, r.fits w = true → ∃ i, decode (.cmd w) = .operation i ∧ i.mnemonic = r.mnemonic)

/-- 30_encoding.md R58: the `PINS` packing, for two chains and for one, with a row address of at most five bits; the reset pins pack to `0x0001`. -/
def Obligations.PinWordPacking : Prop :=
  ∀ (b l k : Bit) (a : Nat) (d0 d1 : Colour), a < 32 →
    (Pins.word ⟨b, l, k, a, [d0, d1]⟩).toNat =
      b.toNat + l.toNat * 2 + k.toNat * 4 + a * 8 + d0.toNat * 2 ^ 8 + d1.toNat * 2 ^ 11 ∧
    (Pins.word ⟨b, l, k, a, [d0]⟩).toNat = b.toNat + l.toNat * 2 + k.toNat * 4 + a * 8 + d0.toNat * 2 ^ 8 ∧
    ∀ T : Topology, (Pins.reset T).word = 0x0001#16

/-! ## The machine: reset, and what a step runs -/

/-- 00_scope.md R8, R9: the records the spec names are well formed, with either orientation, any wiring colours and any plane contents. -/
def Obligations.NamedTopologiesAreWellFormed : Prop :=
  ∀ (inv : Bool) (colors : List (List LedColor)) (init : Nat),
    (Topology.tSingle inv colors init).wf = true ∧ (Topology.tDual inv colors init).wf = true ∧
    (Topology.tHalfA inv colors init).wf = true ∧ (Topology.tHalfB inv colors init).wf = true

/-- 10_state.md R23: the state after reset, for every topology record. The planes hold the record's `INIT_PLANES`, free bytes (log 3). -/
def Obligations.ResetStateValues : Prop :=
  ∀ T : Topology,
    (State.resetFor T).index = 0 ∧ (State.resetFor T).drawSel = 0#1 ∧ (State.resetFor T).swapPending = 0#1 ∧
    (∀ (sel : Bit) (off : Nat), (State.resetFor T).memRead sel off = Config.initPlanes T.initPlanes sel off) ∧
    (State.resetFor T).interval = 0 ∧ (State.resetFor T).tickCnt = 0 ∧
    (State.resetFor T).pins.blank = 1#1 ∧ (State.resetFor T).pins.lat = 0#1 ∧ (State.resetFor T).pins.clk = 0#1 ∧
    (State.resetFor T).pins.addr = 0 ∧ (State.resetFor T).pins.data.length = T.nChains ∧
    (∀ d ∈ (State.resetFor T).pins.data, d = 0#3) ∧
    (State.resetFor T).phase = 0#3 ∧ (State.resetFor T).pass = 0 ∧ (State.resetFor T).col = 0

/-- 70 R150: `rst`, asserted in any state, inside a scan step too, puts every piece of state to its reset value; the topology stays and the moves
still to come stay (log 12). -/
def Obligations.RstRestoresTheResetState : Prop :=
  ∀ (s : State) (rest : List Input), s.topo.wf = true → s.inputs = .reset :: rest →
    step s = .next { State.resetFor s.topo with inputs := rest }

/-- A step runs the decoded operation: a command or a tick between scan steps, past its move; the micro-operation at `phase` inside one, past that
phase (log 6, log 9). -/
def Obligations.StepRunsTheDecodedOperation : Prop :=
  ∀ (s : State) (rest : List Input) (i : Instr),
    (∀ w, s.phase = 0#3 → s.inputs = .command w :: rest → decode (.cmd w) = .operation i →
      step s = exec i { s with inputs := rest }) ∧
    (s.phase = 0#3 → s.inputs = .tick 1#1 :: rest → step s = exec .tick { s with inputs := rest }) ∧
    (s.phase ≠ 0#3 → (∀ l, s.inputs ≠ .reset :: l) → decode (.uop s.phase) = .operation i →
      step s = exec i { s with phase := s.phase + 1#3 })

/-- When nothing happens: no move, or `tick` at 0, between scan steps (40 R76, 30_encoding.md R56; log 7). -/
def Obligations.StepWithoutAnOperation : Prop :=
  ∀ (s : State) (rest : List Input), s.topo.wf = true → s.phase = 0#3 →
    (s.inputs = [] → step s = .next s) ∧
    (s.inputs = .tick 0#1 :: rest → step s = .next { s with inputs := rest })

/-- 60_exceptions.md R131, and MODEL'S CHOICE (log 16, log 17): nothing runs on an ill-formed topology, no step at all, `rst` and an idle step
among them; the shapes of R6's fields count as well-formedness; and the name is this one for an out-of-range `SETPIX` too. -/
def Obligations.IllFormedTopologyIsRefused : Prop :=
  ∀ (s : State) (i : Instr), s.topo.wf = false →
    exec i s = .refused .illFormedTopology ∧ step s = .refused .illFormedTopology

/-- 60_exceptions.md R130, R131: on a well-formed topology every operation completes, but for a `SETPIX` out of range; there is no fault and no
other refusal. -/
def Obligations.EveryOtherOperationCompletes : Prop :=
  ∀ (i : Instr) (s : State), s.topo.wf = true →
    ((∀ x y c, i = .setpix x y c → x < s.topo.width ∧ y < s.topo.height) → ∃ t, exec i s = .next t) ∧
    (∀ x y c, i = .setpix x y c → s.topo.width ≤ x ∨ s.topo.height ≤ y → exec i s = .refused .outOfRangePixel)

/-! ## The pixel write interface -/

/-- 43 R110, R111, R112, R113: `SETPIX` in range completes: the draw plane holds `c[2:0]` at row `y` (or `HEIGHT - 1 - y`), column `x`; every other
byte of both planes reads as before, and so does all the rest of the state. Out of range it is refused, by name. -/
def Obligations.SetpixStoresOneColour : Prop :=
  ∀ (s : State) (x y : Nat) (c : Byte), s.topo.wf = true →
    (x < s.topo.width → y < s.topo.height →
      ∃ t, exec (.setpix x y c) s = .next t ∧
        (let off := (if s.topo.yInvert then s.topo.height - 1 - y else y) * s.topo.width + x
        t.memRead s.drawSel off = c &&& 7#8 ∧
        ∀ (sel : Bit) (o : Nat), ¬(sel = s.drawSel ∧ o = off) → t.memRead sel o = s.memRead sel o) ∧
        t = { s with plane0 := t.plane0, plane1 := t.plane1 }) ∧
    (s.topo.width ≤ x ∨ s.topo.height ≤ y → exec (.setpix x y c) s = .refused .outOfRangePixel)

/-- 43 R114, 20_memory.md R33: no operation but `SETPIX` changes a byte of a plane, and `SETPIX` changes none of the display plane; no operation but
`SHIFTROW` (alone or in a `TICK`) reads a plane, and `SHIFTROW` reads the display plane alone: what it leaves outside the planes does not depend on the
other, and what the others leave there depends on neither. -/
def Obligations.OnlySetpixWritesAPlane : Prop :=
  ∀ (i : Instr) (s t : State), exec i s = .next t →
    ((∀ x y c, i ≠ .setpix x y c) → ∀ sel off, t.memRead sel off = s.memRead sel off) ∧
    (i.context = .mainLoop → ∀ off, t.memRead (s.drawSel ^^^ 1#1) off = s.memRead (s.drawSel ^^^ 1#1) off) ∧
    (∀ s' : State, i ≠ .tick → s' = { s with plane0 := s'.plane0, plane1 := s'.plane1 } →
      i ≠ .shiftrow ∨ samePlane s s' (s.drawSel ^^^ 1#1) →
      ∃ t', exec i s' = .next t' ∧ t' = { t with plane0 := t'.plane0, plane1 := t'.plane1 })

/-! ## The arbiter -/

/-- 42 R100: `SWAPREQ` sets the flag and nothing else; doing it again changes nothing; with the scan disabled no tick takes the request away. -/
def Obligations.SwapreqSetsTheFlag : Prop :=
  ∀ s : State, s.topo.wf = true →
    exec .swapreq s = .next { s with swapPending := 1#1 } ∧
    (s.swapPending = 1#1 → exec .swapreq s = .next s) ∧
    (s.interval = 0 → exec .tick { s with swapPending := 1#1 } = .next { s with swapPending := 1#1 })

/-- 42 R101, 30_encoding.md R54: `DRAWBUF` answers `draw_sel` in bit 0, zeros above, and changes nothing else: the same word in every state with the
same roles ("stable between swaps"), its complement in bit 0 in every state with the roles exchanged. -/
def Obligations.DrawbufAnswersTheDrawPlane : Prop :=
  ∀ s : State, s.topo.wf = true →
    ∃ w : PortBits, w.toNat = s.drawSel.toNat ∧ exec .drawbuf s = .next { s with responses := s.responses ++ [w] } ∧
      ∀ t : State, t.topo.wf = true →
        (t.drawSel = s.drawSel → exec .drawbuf t = .next { t with responses := t.responses ++ [w] }) ∧
        (t.drawSel = s.drawSel ^^^ 1#1 → exec .drawbuf t = .next { t with responses := t.responses ++ [w ^^^ 1#32] })

/-- 42 R102, the whole truth table of 95_test_vectors.md L2.4: at index 0 with a swap pending the roles change and the flag is cleared; else nothing
happens. -/
def Obligations.SwapchkTruthTable : Prop :=
  ∀ s : State, s.topo.wf = true →
    (s.index = 0 → s.swapPending = 1#1 →
      exec .swapchk s = .next { s with drawSel := s.drawSel ^^^ 1#1, swapPending := 0#1 }) ∧
    (s.index = 0 → s.swapPending = 0#1 → exec .swapchk s = .next s) ∧
    (s.index ≠ 0 → exec .swapchk s = .next s)

/-- 42 R102 "This is the ONLY point at which a swap may occur": a step that changes the roles, other than `rst`, leaves index 0 and had a swap
pending, which it clears. -/
def Obligations.RolesChangeOnlyAtTheBoundary : Prop :=
  ∀ s t : State, step s = .next t → t.drawSel ≠ s.drawSel →
    (∃ rest, s.inputs = .reset :: rest) ∨
      (t.index = 0 ∧ s.swapPending = 1#1 ∧ t.swapPending = 0#1 ∧ t.drawSel = s.drawSel ^^^ 1#1)

/-- 42 R100, 95_test_vectors.md L1.2: any number of requests in a row, at least one, leave the state one request leaves. -/
def Obligations.RequestsCoalesce : Prop :=
  ∀ (m : Nat) (s : State) (rest : List Input), s.topo.wf = true → s.phase = 0#3 →
    runSteps (m + 1) { s with inputs := List.replicate (m + 1) (.command 0x20000000#32) ++ rest } =
      runSteps 1 { s with inputs := .command 0x20000000#32 :: rest }

/-! ## The sequencer -/

/-- 40 R71: `BLANK` drives the pin to 1, with one event, and changes nothing else; the micro-operations from there to `UNBLANK` leave the pin. -/
def Obligations.BlankAssertsOutputDisable : Prop :=
  ∀ s : State, s.topo.wf = true →
    exec .blank s = .next { s with pins := { s.pins with blank := 1#1 }, trace := s.trace ++ [.blank 1#1] } ∧
    ∀ i ∈ [Instr.advance, .swapchk, .setaddr, .shiftrow, .latch], ∃ t, exec i s = .next t ∧ t.pins.blank = s.pins.blank

/-- 40 R72: `ADVANCE` takes the index on by one modulo `ROWS_PER_SCAN` and changes nothing else; from any legal index the sequence visits every value
exactly once per period. -/
def Obligations.AdvanceIsPeriodic : Prop :=
  ∀ s : State, s.topo.wf = true →
    exec .advance s = .next { s with index := (s.index + 1) % s.topo.rowsPerScan } ∧
    (s.index = s.topo.rowsPerScan - 1 → exec .advance s = .next { s with index := 0 }) ∧
    (s.index < s.topo.rowsPerScan → ∀ v < s.topo.rowsPerScan, ∃! n, n < s.topo.rowsPerScan ∧
      (fun u => (completed (exec .advance u)).getD u)^[n] s = { s with index := v })

/-- 40 R73: `SETADDR` drives the row-address lines with the index, in one event, and changes nothing else; bit by bit in general, and the index itself
for a legal index ("no bit is lost"). -/
def Obligations.SetaddrDrivesTheIndex : Prop :=
  ∀ s : State, s.topo.wf = true →
    (∃ a, (∀ b, a.testBit b = (decide (b < s.topo.addrBits) && s.index.testBit b)) ∧
      exec .setaddr s = .next { s with pins := { s.pins with addr := a }, trace := s.trace ++ [.addr a] }) ∧
    (s.index < s.topo.rowsPerScan →
      exec .setaddr s = .next { s with pins := { s.pins with addr := s.index }, trace := s.trace ++ [.addr s.index] })

/-- 40 R74: `LATCH` pulses the latch, two events, ends at 0, and changes nothing else; a scan step has exactly one latch pulse, after its last clock
pulse. -/
def Obligations.LatchPulses : Prop :=
  ∀ s : State, s.topo.wf = true →
    exec .latch s = .next { s with pins := { s.pins with lat := 0#1 }, trace := s.trace ++ [.lat 1#1, .lat 0#1] } ∧
    (s.interval ≠ 0 → s.interval ≤ s.tickCnt + 1 →
      ∃ t before, exec .tick s = .next t ∧ t.trace = s.trace ++ before ++ [.lat 1#1, .lat 0#1, .blank 0#1] ∧
        .lat 1#1 ∉ before ∧ before.getLast? = some (.clk 0#1))

/-- 40 R75: `UNBLANK` drives the pin to 0, with one event, and changes nothing else; that event is the last of a scan step, and outside a scan step no
operation of the two agents changes a pin. -/
def Obligations.UnblankReleasesOutputDisable : Prop :=
  ∀ s : State, s.topo.wf = true →
    exec .unblank s = .next { s with pins := { s.pins with blank := 0#1 }, trace := s.trace ++ [.blank 0#1] } ∧
    (s.interval ≠ 0 → s.interval ≤ s.tickCnt + 1 →
      ∃ t, exec .tick s = .next t ∧ t.trace.getLast? = some (.blank 0#1)) ∧
    ∀ i t, i.context = .mainLoop ∨ (i = .tick ∧ (s.interval = 0 ∨ s.tickCnt + 1 < s.interval)) →
      exec i s = .next t → t.pins = s.pins ∧ t.trace = s.trace

/-! ## The multiplexer -/

/-- 41 R85 to R88: `SHIFTROW` makes the events of its loops, with the colour codes of the rows and columns of R86 and R87 of the display plane; `LAT`
and `CLK` end at 0, `DATA` holds the last values, the loop counters are 0, and nothing else changes. -/
def Obligations.ShiftrowPresentsTheRows : Prop :=
  ∀ (s : State) (d : Nat → Nat → List Colour), s.topo.wf = true →
    (∀ p k, d p k = (List.range s.topo.nChains).map (fun c =>
      (s.memRead (s.drawSel ^^^ 1#1)
        ((if (s.topo.lane p c).rowRev then (s.topo.lane p c).rowBase + (s.topo.rowsPerScan - 1 - s.index)
          else (s.topo.lane p c).rowBase + s.index) * s.topo.width +
          (if (s.topo.lane p c).colRev then s.topo.width - 1 - k else k))).extractLsb' 0 3)) →
    exec .shiftrow s = .next { s with
      pass := 0
      col := 0
      pins := { s.pins with lat := 0#1, clk := 0#1, data := d (s.topo.nPasses - 1) (s.topo.width - 1) }
      trace := s.trace ++ .lat 0#1 :: (List.range s.topo.nPasses).flatMap (fun p =>
        (List.range s.topo.width).flatMap (fun k => [.data (d p k), .clk 1#1, .clk 0#1])) }

/-- 20_memory.md R35: every address `SHIFTROW` reads is in the plane, for a legal index. -/
def Obligations.ShiftrowReadsInRange : Prop :=
  ∀ (T : Topology) (p c k i : Nat), T.wf = true → p < T.nPasses → c < T.nChains → k < T.width → i < T.rowsPerScan →
    T.laneRow p c i < T.height ∧ T.laneColumn p c k < T.width ∧
    T.pixelOffset (T.laneRow p c i) (T.laneColumn p c k) < T.width * T.height

/-- 41 R90: over the `ROWS_PER_SCAN` values of the index every pixel of the buffer is presented exactly once. -/
def Obligations.EveryPixelOncePerCycle : Prop :=
  ∀ (T : Topology) (r x : Nat), T.wf = true → r < T.height → x < T.width →
    ∃! q : Nat × Nat × Nat × Nat,
      q.1 < T.rowsPerScan ∧ q.2.1 < T.nPasses ∧ q.2.2.1 < T.nChains ∧ q.2.2.2 < T.width ∧
      T.laneRow q.2.1 q.2.2.1 q.1 = r ∧ T.laneColumn q.2.1 q.2.2.1 q.2.2.2 = x

/-- 41 R91: where a pixel of a lane's rows is presented: at which index, and at which pulse. -/
def Obligations.PlaceOfAPixel : Prop :=
  ∀ (T : Topology) (r x p c : Nat), T.wf = true → p < T.nPasses → c < T.nChains → x < T.width →
    (T.lane p c).rowBase ≤ r → r < (T.lane p c).rowBase + T.rowsPerScan →
    (∀ a < T.rowsPerScan, T.laneRow p c a = r ↔
      a = (if (T.lane p c).rowRev then T.rowsPerScan - 1 - (r - (T.lane p c).rowBase) else r - (T.lane p c).rowBase)) ∧
    (∀ k < T.width, T.laneColumn p c k = x ↔ k = (if (T.lane p c).colRev then T.width - 1 - x else x))

/-- 41 R89, 95_test_vectors.md L1.6, L2.5: with a display plane whose every byte has low bits `c`, whatever its upper bits, every value presented on
every chain is `c`. -/
def Obligations.SolidFillIsShifted : Prop :=
  ∀ (s : State) (c : Colour), s.topo.wf = true → s.index < s.topo.rowsPerScan →
    (∀ off < s.topo.width * s.topo.height, (s.memRead (s.drawSel ^^^ 1#1) off).toNat % 8 = c.toNat) →
    ∃ t, exec .shiftrow s = .next t ∧
      t.trace = s.trace ++ .lat 0#1 :: (List.replicate (s.topo.nPasses * s.topo.width)
        [PinEvent.data (List.replicate s.topo.nChains c), .clk 1#1, .clk 0#1]).flatten

/-! ## The tick -/

/-- 44 R120: `REGPER n` replaces the interval and clears the count, as one action, and changes nothing else; with `n = 0` no tick does anything after
it; with `n >= 1` the first firing is on the `n`-th `TICK` after it. -/
def Obligations.RegperReplacesTheInterval : Prop :=
  ∀ (s : State) (n : Nat), s.topo.wf = true → n < 2 ^ s.topo.intervalBits →
    ∃ t, exec (.regper n) s = .next t ∧ t = { s with interval := n, tickCnt := 0 } ∧
      (n = 0 → exec .tick t = .next t) ∧
      (∀ j < n, (fun u => (completed (exec .tick u)).getD u)^[j] t = { t with tickCnt := j }) ∧
      (1 ≤ n → ∃ u, exec .tick { t with tickCnt := n - 1 } = .next u ∧ u.index = (s.index + 1) % s.topo.rowsPerScan ∧ u.tickCnt = 0)

/-- MODEL'S CHOICE (log 5): an `n` the interval register has no place for leaves some value of the register's width, the count cleared and all else
unchanged. -/
def Obligations.RegperBeyondTheRegister : Prop :=
  ∀ (s : State) (n : Nat), s.topo.wf = true →
    ∃ v, v < 2 ^ s.topo.intervalBits ∧ exec (.regper n) s = .next { s with interval := v, tickCnt := 0 }

/-- 44 R121, 40 R70: `TICK` does nothing when disabled; it counts; on reaching the interval it clears the count and runs the seven micro-operations in
their fixed order, each at its phase, whole; the count stays below the interval. -/
def Obligations.TickCountsAndFires : Prop :=
  ∀ s : State, s.topo.wf = true →
    (s.tickCnt < s.interval → ∃ t, exec .tick s = .next t ∧ t.interval = s.interval ∧ t.tickCnt < t.interval) ∧
    (s.interval = 0 → exec .tick s = .next s) ∧
    (s.interval ≠ 0 → s.tickCnt + 1 < s.interval → exec .tick s = .next { s with tickCnt := s.tickCnt + 1 }) ∧
    (s.interval ≠ 0 → s.interval ≤ s.tickCnt + 1 →
      ∃ s1 s2 s3 s4 s5 s6 s7,
        exec .blank { s with tickCnt := 0, phase := 1#3 } = .next s1 ∧
        exec .advance { s1 with phase := 2#3 } = .next s2 ∧
        exec .swapchk { s2 with phase := 3#3 } = .next s3 ∧
        exec .setaddr { s3 with phase := 4#3 } = .next s4 ∧
        exec .shiftrow { s4 with phase := 5#3 } = .next s5 ∧
        exec .latch { s5 with phase := 6#3 } = .next s6 ∧
        exec .unblank { s6 with phase := 7#3 } = .next s7 ∧
        exec .tick s = .next { s7 with phase := 0#3 })

/-- 40 R70, R77, 60_exceptions.md R144: what a firing `TICK` leaves, and its whole pin-event trace; the planes, the interval, the responses and the
topology are unchanged. -/
def Obligations.FiringTickShowsOneRowGroup : Prop :=
  ∀ s : State, s.topo.wf = true → s.interval ≠ 0 → s.interval ≤ s.tickCnt + 1 →
    ∃ t, exec .tick s = .next t ∧
      t.index = (s.index + 1) % s.topo.rowsPerScan ∧
      (t.index = 0 ∧ s.swapPending = 1#1 → t.drawSel = s.drawSel ^^^ 1#1 ∧ t.swapPending = 0#1) ∧
      (¬(t.index = 0 ∧ s.swapPending = 1#1) → t.drawSel = s.drawSel ∧ t.swapPending = s.swapPending) ∧
      t.pins = ⟨0#1, 0#1, 0#1, t.index, t.presented (s.topo.nPasses - 1) (s.topo.width - 1)⟩ ∧
      t.trace = s.trace ++ ([.blank 1#1, .addr t.index, .lat 0#1] ++
        (List.range s.topo.nPasses).flatMap (fun p => (List.range s.topo.width).flatMap (fun k =>
          [.data (t.presented p k), .clk 1#1, .clk 0#1])) ++ [.lat 1#1, .lat 0#1, .blank 0#1]) ∧
      t = { s with
        index := t.index, drawSel := t.drawSel, swapPending := t.swapPending, tickCnt := 0, pins := t.pins, trace := t.trace,
        phase := 0#3, pass := 0, col := 0 }

/-- 40 R78: the counts of a scan step. -/
def Obligations.ScanStepCounts : Prop :=
  ∀ s t : State, s.topo.wf = true → s.interval ≠ 0 → s.interval ≤ s.tickCnt + 1 → exec .tick s = .next t →
    t.trace.length = s.trace.length + (6 + 3 * s.topo.nPasses * s.topo.width) ∧
    t.trace.count (.clk 1#1) = s.trace.count (.clk 1#1) + s.topo.nPasses * s.topo.width ∧
    pixelValuesIn t.trace = pixelValuesIn s.trace + s.topo.nPasses * s.topo.width * s.topo.nChains ∧
    t.trace.count (.lat 1#1) = s.trace.count (.lat 1#1) + 1 ∧
    scanStepsIn t.trace = scanStepsIn s.trace + 1

/-- 40 R81: the events `es` that a firing `TICK` appends to the trace show the scan record of the state it leaves: the new index, the display plane's id
after the swap check, and, sampled at each rising edge of `CLK`, the colour codes on the data lines, each the low 3 bits of the byte of that display plane
at the lane's row and column. -/
def Obligations.ScanRecordIsInTheTrace : Prop :=
  ∀ s : State, s.topo.wf = true → s.pins.clk = 0#1 → s.interval ≠ 0 → s.interval ≤ s.tickCnt + 1 →
    ∃ (t : State) (es : List PinEvent), exec .tick s = .next t ∧ t.trace = s.trace ++ es ∧
      t.scanRecord = ⟨(s.index + 1) % s.topo.rowsPerScan,
        if (s.index + 1) % s.topo.rowsPerScan = 0 ∧ s.swapPending = 1#1 then s.drawSel else s.drawSel ^^^ 1#1, s.pins.sampled es⟩ ∧
      (s.pins.sampled es).length = s.topo.nPasses * s.topo.width ∧
      ∀ p k c, p < s.topo.nPasses → k < s.topo.width → c < s.topo.nChains →
        ((s.pins.sampled es).getD (p * s.topo.width + k) []).getD c 0#3 =
          (t.memRead (t.drawSel ^^^ 1#1)
            (s.topo.pixelOffset (s.topo.laneRow p c t.index) (s.topo.laneColumn p c k))).extractLsb' 0 3

/-- 41 R93: after the events that a firing `TICK` appends to the trace, the pixel of pulse `m` of the display plane stands in cell
`N_PASSES * WIDTH - 1 - m` of the reference sink's output stage, and what is lit is the new index and that stage. -/
def Obligations.SinkHoldsThePulses : Prop :=
  ∀ (s : State) (k : Sink), s.topo.wf = true → k.fits s.topo = true → s.interval ≠ 0 → s.interval ≤ s.tickCnt + 1 →
    ∃ (t : State) (es : List PinEvent), exec .tick s = .next t ∧ t.trace = s.trace ++ es ∧
      (∀ p c j, p < s.topo.nPasses → c < s.topo.nChains → j < s.topo.width →
        ((k.run es).out.getD c []).getD (s.topo.nPasses * s.topo.width - 1 - (p * s.topo.width + j)) 0#3 =
          (t.memRead (t.drawSel ^^^ 1#1)
            (s.topo.pixelOffset (s.topo.laneRow p c t.index) (s.topo.laneColumn p c j))).extractLsb' 0 3) ∧
      (k.run es).lit = some ((s.index + 1) % s.topo.rowsPerScan, (k.run es).out)

/-- 40 R70, 20_memory.md R40: the one atomic step of a firing `TICK` and seven steps of the sequencer from phase 1 end in the same state (the model's two
grains agree, log 9). -/
def Obligations.AtomicScanStepIsSevenSteps : Prop :=
  ∀ s : State, s.topo.wf = true → s.interval ≠ 0 → s.interval ≤ s.tickCnt + 1 → (∀ l, s.inputs ≠ .reset :: l) →
    runSteps 7 { s with tickCnt := 0, phase := 1#3 } = exec .tick s

/-- 60_exceptions.md R137: inside a scan step no move of another party is taken, but for `rst`: no re-entry (log 10). -/
def Obligations.NoMoveInsideAScanStep : Prop :=
  ∀ s t : State, s.phase ≠ 0#3 → (∀ l, s.inputs ≠ .reset :: l) → step s = .next t →
    t.inputs = s.inputs ∧ t.phase = s.phase + 1#3

/-! ## Rights of the two contexts -/

/-- 60_exceptions.md R139, 10_state.md R22: what a main-loop command may touch. -/
def Obligations.MainLoopTouchesOnlyItsOwn : Prop :=
  ∀ (i : Instr) (s t : State), i.context = .mainLoop → exec i s = .next t →
    t.topo = s.topo ∧ t.index = s.index ∧ t.drawSel = s.drawSel ∧ t.pins = s.pins ∧ t.trace = s.trace ∧ t.phase = s.phase ∧
    t.pass = s.pass ∧ t.col = s.col ∧ t.inputs = s.inputs ∧
    (t.swapPending = s.swapPending ∨ (i = .swapreq ∧ t.swapPending = 1#1)) ∧
    (t.interval = s.interval ∧ t.tickCnt = s.tickCnt ∨ ∃ n, i = .regper n) ∧
    (t.responses = s.responses ∨ i = .drawbuf)

/-- 60_exceptions.md R139, 10_state.md R22: what the interrupt context may not touch. -/
def Obligations.InterruptTouchesOnlyItsOwn : Prop :=
  ∀ (i : Instr) (s t : State), i.context = .interrupt → exec i s = .next t →
    t.topo = s.topo ∧ t.plane0 = s.plane0 ∧ t.plane1 = s.plane1 ∧ t.interval = s.interval ∧ t.responses = s.responses ∧
    t.inputs = s.inputs ∧ (t.tickCnt = s.tickCnt ∨ i = .tick) ∧ (t.swapPending = s.swapPending ∨ t.swapPending = 0#1)

/-- 42 R103, 20_memory.md R33: what the pins show does not depend on the draw plane: two states that differ only there, with no swap due, show the same. -/
def Obligations.DrawPlaneDoesNotShow : Prop :=
  ∀ s s' t t' : State,
    s' = { s with plane0 := s'.plane0, plane1 := s'.plane1 } → samePlane s s' (s.drawSel ^^^ 1#1) →
    ¬((s.index + 1) % s.topo.rowsPerScan = 0 ∧ s.swapPending = 1#1) →
    exec .tick s = .next t → exec .tick s' = .next t' →
    t.pins = t'.pins ∧ t.trace = t'.trace ∧ t.index = t'.index

/-! ## Whole-machine rules -/

/-- The invariant holds after reset, for every well-formed topology and for `State.reset`. -/
def Obligations.InvariantHoldsAtReset : Prop :=
  (∀ T : Topology, T.wf = true → (State.resetFor T).Inv) ∧ State.reset.Inv

/-- Every step keeps the invariant: legal index, interval and count, canonical planes of stored colours, pins that the trace explains, and the pin
protocol of 40 R80 in the whole trace. -/
def Obligations.EveryStepKeepsTheInvariant : Prop :=
  ∀ s t : State, s.Inv → step s = .next t → t.Inv

/-- 10_state.md R21: no step changes the topology. -/
def Obligations.TopologyIsFixed : Prop :=
  ∀ s t : State, step s = .next t → t.topo = s.topo

/-- 10_state.md R12: the index is the number of scan steps since reset modulo `ROWS_PER_SCAN` (counted by the row-address events of the trace; one
ahead between `ADVANCE` and `SETADDR`): kept by every step, and true after reset. -/
def Obligations.IndexCountsScanSteps : Prop :=
  (∀ T : Topology, T.wf = true → (State.resetFor T).index = scanStepsIn (State.resetFor T).trace % T.rowsPerScan) ∧
  ∀ s t : State, step s = .next t →
    (s.index = (scanStepsIn s.trace + (if s.phase = 3#3 ∨ s.phase = 4#3 then 1 else 0)) % s.topo.rowsPerScan) →
    (t.index = (scanStepsIn t.trace + (if t.phase = 3#3 ∨ t.phase = 4#3 then 1 else 0)) % t.topo.rowsPerScan)

/-- 42 R104: tear-free. From a state between scan steps, as long as the index has not wrapped, whatever the two agents do, the roles do not change and
no byte of the display plane does. -/
def Obligations.NoTearWithinACycle : Prop :=
  ∀ (k : Nat) (s t : State), s.Inv → s.phase = 0#3 → noReset s.inputs = true → runSteps k s = .next t →
    s.index + (scanStepsIn t.trace - scanStepsIn s.trace) < s.topo.rowsPerScan →
    t.drawSel = s.drawSel ∧ samePlane s t (s.drawSel ^^^ 1#1)

/-- 42 R105: what gets displayed. With no `SETPIX` between the request and the boundary, from the boundary until the next swap the display plane is the
draw plane as it was when the request was pending. -/
def Obligations.RequestedFrameIsDisplayed : Prop :=
  ∀ (k m : Nat) (s b t : State) (used : List Input),
    s.Inv → s.phase = 0#3 → s.swapPending = 1#1 → noReset s.inputs = true →
    runSteps k s = .next b → s.inputs = used ++ b.inputs → noDrawing used = true → b.drawSel = s.drawSel ^^^ 1#1 →
    runSteps m b = .next t → (∀ j ≤ m, ∀ u, runSteps j b = .next u → u.drawSel = b.drawSel) →
    ∀ off, t.memRead (t.drawSel ^^^ 1#1) off = s.memRead s.drawSel off

/-- 42 R106: with no request pending and none made, the roles never change. -/
def Obligations.NoRequestNoSwap : Prop :=
  ∀ (k : Nat) (s t : State), s.swapPending = 0#1 → noReset s.inputs = true →
    (∀ w, .command w ∈ s.inputs → w ≠ 0x20000000#32) → runSteps k s = .next t →
    t.drawSel = s.drawSel ∧ t.swapPending = 0#1

/-- 42 R107: latency of a swap. With a swap pending and a scan step on every tick, the `j`-th tick finds the swap made exactly when `j` has reached
`ROWS_PER_SCAN - index`, for `j` up to `ROWS_PER_SCAN`. -/
def Obligations.SwapLatency : Prop :=
  ∀ (s : State) (j : Nat), s.Inv → s.phase = 0#3 → s.swapPending = 1#1 → s.interval = 1 →
    s.inputs = List.replicate s.topo.rowsPerScan (.tick 1#1) → j ≤ s.topo.rowsPerScan →
    ∃ t, runSteps j s = .next t ∧
      (s.topo.rowsPerScan - s.index ≤ j → t.drawSel = s.drawSel ^^^ 1#1 ∧ t.swapPending = 0#1) ∧
      (j < s.topo.rowsPerScan - s.index → t.drawSel = s.drawSel ∧ t.swapPending = 1#1)

/-- 44 R120, R121: after `REGPER n`, `n * q + r` ticks fire exactly `q` scan steps and leave the count at `r`, for every `r` below `n`. -/
def Obligations.DividerFiresEveryNthTick : Prop :=
  ∀ (s : State) (n q r : Nat), s.topo.wf = true → s.phase = 0#3 → s.index < s.topo.rowsPerScan →
    1 ≤ n → n < 2 ^ s.topo.intervalBits → r < n → s.inputs = List.replicate (n * q + r) (.tick 1#1) →
    ∃ t, runSteps (n * q + r) { s with interval := n, tickCnt := 0 } = .next t ∧
      t.index = (s.index + q) % s.topo.rowsPerScan ∧ t.tickCnt = r ∧ t.interval = n ∧ t.inputs = [] ∧
      scanStepsIn t.trace = scanStepsIn s.trace + q

/-- 60_exceptions.md R144, 95_test_vectors.md L1.7: with the interval 0 any number of ticks changes nothing: the pins, the planes, the index and the flag
stay, and no scan step is made. -/
def Obligations.DisabledScanIsFrozen : Prop :=
  ∀ (s : State) (k : Nat) (rest : List Input), s.topo.wf = true → s.phase = 0#3 → s.interval = 0 →
    s.inputs = List.replicate k (.tick 1#1) ++ rest → runSteps k s = .next { s with inputs := rest }

/-- 30_encoding.md R63, 43 R110 to R112, 20_memory.md R41: the listing `FILL c` runs whole, in as many steps as it has commands, and leaves every byte of
the draw plane at `c[2:0]`; the display plane and all registers and pins stay. -/
def Obligations.FillWritesTheWholeDrawPlane : Prop :=
  ∀ (s : State) (c : Byte), s.Inv → s.phase = 0#3 → s.topo.width ≤ 2 ^ 10 → s.topo.height ≤ 2 ^ 10 →
    s.inputs = listing (fill s.topo c) →
    ∃ t, runSteps (s.topo.width * s.topo.height) s = .next t ∧
      (∀ off < s.topo.width * s.topo.height, t.memRead s.drawSel off = c &&& 7#8) ∧
      samePlane s t (s.drawSel ^^^ 1#1) ∧
      t = { s with plane0 := t.plane0, plane1 := t.plane1, inputs := [] }
end

