-- ==== Sys2Proof/Laws/State.lean ====
section
/-! SUPPORT. What each update of State leaves in each field: one lemma per field per update, so that no proof unfolds a record update. -/

namespace Sys2Proof.Machine

variable (s : State)

/-! ### setIndex -/

@[simp] theorem State.setIndex_topo (v : Nat) : (s.setIndex v).topo = s.topo := rfl
@[simp] theorem State.setIndex_index (v : Nat) : (s.setIndex v).index = v := rfl
@[simp] theorem State.setIndex_drawSel (v : Nat) : (s.setIndex v).drawSel = s.drawSel := rfl
@[simp] theorem State.setIndex_swapPending (v : Nat) : (s.setIndex v).swapPending = s.swapPending := rfl
@[simp] theorem State.setIndex_plane0 (v : Nat) : (s.setIndex v).plane0 = s.plane0 := rfl
@[simp] theorem State.setIndex_plane1 (v : Nat) : (s.setIndex v).plane1 = s.plane1 := rfl
@[simp] theorem State.setIndex_interval (v : Nat) : (s.setIndex v).interval = s.interval := rfl
@[simp] theorem State.setIndex_tickCnt (v : Nat) : (s.setIndex v).tickCnt = s.tickCnt := rfl
@[simp] theorem State.setIndex_pins (v : Nat) : (s.setIndex v).pins = s.pins := rfl
@[simp] theorem State.setIndex_phase (v : Nat) : (s.setIndex v).phase = s.phase := rfl
@[simp] theorem State.setIndex_pass (v : Nat) : (s.setIndex v).pass = s.pass := rfl
@[simp] theorem State.setIndex_col (v : Nat) : (s.setIndex v).col = s.col := rfl
@[simp] theorem State.setIndex_trace (v : Nat) : (s.setIndex v).trace = s.trace := rfl
@[simp] theorem State.setIndex_responses (v : Nat) : (s.setIndex v).responses = s.responses := rfl
@[simp] theorem State.setIndex_inputs (v : Nat) : (s.setIndex v).inputs = s.inputs := rfl

/-! ### setInterval -/

@[simp] theorem State.setInterval_topo (n : Nat) : (s.setInterval n).topo = s.topo := rfl
@[simp] theorem State.setInterval_index (n : Nat) : (s.setInterval n).index = s.index := rfl
@[simp] theorem State.setInterval_drawSel (n : Nat) : (s.setInterval n).drawSel = s.drawSel := rfl
@[simp] theorem State.setInterval_swapPending (n : Nat) : (s.setInterval n).swapPending = s.swapPending := rfl
@[simp] theorem State.setInterval_plane0 (n : Nat) : (s.setInterval n).plane0 = s.plane0 := rfl
@[simp] theorem State.setInterval_plane1 (n : Nat) : (s.setInterval n).plane1 = s.plane1 := rfl
@[simp] theorem State.setInterval_interval (n : Nat) : (s.setInterval n).interval = n := rfl
@[simp] theorem State.setInterval_tickCnt (n : Nat) : (s.setInterval n).tickCnt = 0 := rfl
@[simp] theorem State.setInterval_pins (n : Nat) : (s.setInterval n).pins = s.pins := rfl
@[simp] theorem State.setInterval_phase (n : Nat) : (s.setInterval n).phase = s.phase := rfl
@[simp] theorem State.setInterval_pass (n : Nat) : (s.setInterval n).pass = s.pass := rfl
@[simp] theorem State.setInterval_col (n : Nat) : (s.setInterval n).col = s.col := rfl
@[simp] theorem State.setInterval_trace (n : Nat) : (s.setInterval n).trace = s.trace := rfl
@[simp] theorem State.setInterval_responses (n : Nat) : (s.setInterval n).responses = s.responses := rfl
@[simp] theorem State.setInterval_inputs (n : Nat) : (s.setInterval n).inputs = s.inputs := rfl

/-! ### setTickCnt -/

@[simp] theorem State.setTickCnt_topo (v : Nat) : (s.setTickCnt v).topo = s.topo := rfl
@[simp] theorem State.setTickCnt_index (v : Nat) : (s.setTickCnt v).index = s.index := rfl
@[simp] theorem State.setTickCnt_drawSel (v : Nat) : (s.setTickCnt v).drawSel = s.drawSel := rfl
@[simp] theorem State.setTickCnt_swapPending (v : Nat) : (s.setTickCnt v).swapPending = s.swapPending := rfl
@[simp] theorem State.setTickCnt_plane0 (v : Nat) : (s.setTickCnt v).plane0 = s.plane0 := rfl
@[simp] theorem State.setTickCnt_plane1 (v : Nat) : (s.setTickCnt v).plane1 = s.plane1 := rfl
@[simp] theorem State.setTickCnt_interval (v : Nat) : (s.setTickCnt v).interval = s.interval := rfl
@[simp] theorem State.setTickCnt_tickCnt (v : Nat) : (s.setTickCnt v).tickCnt = v := rfl
@[simp] theorem State.setTickCnt_pins (v : Nat) : (s.setTickCnt v).pins = s.pins := rfl
@[simp] theorem State.setTickCnt_phase (v : Nat) : (s.setTickCnt v).phase = s.phase := rfl
@[simp] theorem State.setTickCnt_pass (v : Nat) : (s.setTickCnt v).pass = s.pass := rfl
@[simp] theorem State.setTickCnt_col (v : Nat) : (s.setTickCnt v).col = s.col := rfl
@[simp] theorem State.setTickCnt_trace (v : Nat) : (s.setTickCnt v).trace = s.trace := rfl
@[simp] theorem State.setTickCnt_responses (v : Nat) : (s.setTickCnt v).responses = s.responses := rfl
@[simp] theorem State.setTickCnt_inputs (v : Nat) : (s.setTickCnt v).inputs = s.inputs := rfl

/-! ### setPhase -/

@[simp] theorem State.setPhase_topo (p : BitVec 3) : (s.setPhase p).topo = s.topo := rfl
@[simp] theorem State.setPhase_index (p : BitVec 3) : (s.setPhase p).index = s.index := rfl
@[simp] theorem State.setPhase_drawSel (p : BitVec 3) : (s.setPhase p).drawSel = s.drawSel := rfl
@[simp] theorem State.setPhase_swapPending (p : BitVec 3) : (s.setPhase p).swapPending = s.swapPending := rfl
@[simp] theorem State.setPhase_plane0 (p : BitVec 3) : (s.setPhase p).plane0 = s.plane0 := rfl
@[simp] theorem State.setPhase_plane1 (p : BitVec 3) : (s.setPhase p).plane1 = s.plane1 := rfl
@[simp] theorem State.setPhase_interval (p : BitVec 3) : (s.setPhase p).interval = s.interval := rfl
@[simp] theorem State.setPhase_tickCnt (p : BitVec 3) : (s.setPhase p).tickCnt = s.tickCnt := rfl
@[simp] theorem State.setPhase_pins (p : BitVec 3) : (s.setPhase p).pins = s.pins := rfl
@[simp] theorem State.setPhase_phase (p : BitVec 3) : (s.setPhase p).phase = p := rfl
@[simp] theorem State.setPhase_pass (p : BitVec 3) : (s.setPhase p).pass = s.pass := rfl
@[simp] theorem State.setPhase_col (p : BitVec 3) : (s.setPhase p).col = s.col := rfl
@[simp] theorem State.setPhase_trace (p : BitVec 3) : (s.setPhase p).trace = s.trace := rfl
@[simp] theorem State.setPhase_responses (p : BitVec 3) : (s.setPhase p).responses = s.responses := rfl
@[simp] theorem State.setPhase_inputs (p : BitVec 3) : (s.setPhase p).inputs = s.inputs := rfl

/-! ### setLoop -/

@[simp] theorem State.setLoop_topo (p k : Nat) : (s.setLoop p k).topo = s.topo := rfl
@[simp] theorem State.setLoop_index (p k : Nat) : (s.setLoop p k).index = s.index := rfl
@[simp] theorem State.setLoop_drawSel (p k : Nat) : (s.setLoop p k).drawSel = s.drawSel := rfl
@[simp] theorem State.setLoop_swapPending (p k : Nat) : (s.setLoop p k).swapPending = s.swapPending := rfl
@[simp] theorem State.setLoop_plane0 (p k : Nat) : (s.setLoop p k).plane0 = s.plane0 := rfl
@[simp] theorem State.setLoop_plane1 (p k : Nat) : (s.setLoop p k).plane1 = s.plane1 := rfl
@[simp] theorem State.setLoop_interval (p k : Nat) : (s.setLoop p k).interval = s.interval := rfl
@[simp] theorem State.setLoop_tickCnt (p k : Nat) : (s.setLoop p k).tickCnt = s.tickCnt := rfl
@[simp] theorem State.setLoop_pins (p k : Nat) : (s.setLoop p k).pins = s.pins := rfl
@[simp] theorem State.setLoop_phase (p k : Nat) : (s.setLoop p k).phase = s.phase := rfl
@[simp] theorem State.setLoop_pass (p k : Nat) : (s.setLoop p k).pass = p := rfl
@[simp] theorem State.setLoop_col (p k : Nat) : (s.setLoop p k).col = k := rfl
@[simp] theorem State.setLoop_trace (p k : Nat) : (s.setLoop p k).trace = s.trace := rfl
@[simp] theorem State.setLoop_responses (p k : Nat) : (s.setLoop p k).responses = s.responses := rfl
@[simp] theorem State.setLoop_inputs (p k : Nat) : (s.setLoop p k).inputs = s.inputs := rfl

/-! ### driveBlank -/

@[simp] theorem State.driveBlank_topo (v : Bit) : (s.driveBlank v).topo = s.topo := rfl
@[simp] theorem State.driveBlank_index (v : Bit) : (s.driveBlank v).index = s.index := rfl
@[simp] theorem State.driveBlank_drawSel (v : Bit) : (s.driveBlank v).drawSel = s.drawSel := rfl
@[simp] theorem State.driveBlank_swapPending (v : Bit) : (s.driveBlank v).swapPending = s.swapPending := rfl
@[simp] theorem State.driveBlank_plane0 (v : Bit) : (s.driveBlank v).plane0 = s.plane0 := rfl
@[simp] theorem State.driveBlank_plane1 (v : Bit) : (s.driveBlank v).plane1 = s.plane1 := rfl
@[simp] theorem State.driveBlank_interval (v : Bit) : (s.driveBlank v).interval = s.interval := rfl
@[simp] theorem State.driveBlank_tickCnt (v : Bit) : (s.driveBlank v).tickCnt = s.tickCnt := rfl
@[simp] theorem State.driveBlank_pins (v : Bit) : (s.driveBlank v).pins = { s.pins with blank := v } := rfl
@[simp] theorem State.driveBlank_phase (v : Bit) : (s.driveBlank v).phase = s.phase := rfl
@[simp] theorem State.driveBlank_pass (v : Bit) : (s.driveBlank v).pass = s.pass := rfl
@[simp] theorem State.driveBlank_col (v : Bit) : (s.driveBlank v).col = s.col := rfl
@[simp] theorem State.driveBlank_trace (v : Bit) : (s.driveBlank v).trace = s.trace ++ [.blank v] := rfl
@[simp] theorem State.driveBlank_responses (v : Bit) : (s.driveBlank v).responses = s.responses := rfl
@[simp] theorem State.driveBlank_inputs (v : Bit) : (s.driveBlank v).inputs = s.inputs := rfl

/-! ### driveLat -/

@[simp] theorem State.driveLat_topo (v : Bit) : (s.driveLat v).topo = s.topo := rfl
@[simp] theorem State.driveLat_index (v : Bit) : (s.driveLat v).index = s.index := rfl
@[simp] theorem State.driveLat_drawSel (v : Bit) : (s.driveLat v).drawSel = s.drawSel := rfl
@[simp] theorem State.driveLat_swapPending (v : Bit) : (s.driveLat v).swapPending = s.swapPending := rfl
@[simp] theorem State.driveLat_plane0 (v : Bit) : (s.driveLat v).plane0 = s.plane0 := rfl
@[simp] theorem State.driveLat_plane1 (v : Bit) : (s.driveLat v).plane1 = s.plane1 := rfl
@[simp] theorem State.driveLat_interval (v : Bit) : (s.driveLat v).interval = s.interval := rfl
@[simp] theorem State.driveLat_tickCnt (v : Bit) : (s.driveLat v).tickCnt = s.tickCnt := rfl
@[simp] theorem State.driveLat_pins (v : Bit) : (s.driveLat v).pins = { s.pins with lat := v } := rfl
@[simp] theorem State.driveLat_phase (v : Bit) : (s.driveLat v).phase = s.phase := rfl
@[simp] theorem State.driveLat_pass (v : Bit) : (s.driveLat v).pass = s.pass := rfl
@[simp] theorem State.driveLat_col (v : Bit) : (s.driveLat v).col = s.col := rfl
@[simp] theorem State.driveLat_trace (v : Bit) : (s.driveLat v).trace = s.trace ++ [.lat v] := rfl
@[simp] theorem State.driveLat_responses (v : Bit) : (s.driveLat v).responses = s.responses := rfl
@[simp] theorem State.driveLat_inputs (v : Bit) : (s.driveLat v).inputs = s.inputs := rfl

/-! ### driveClk -/

@[simp] theorem State.driveClk_topo (v : Bit) : (s.driveClk v).topo = s.topo := rfl
@[simp] theorem State.driveClk_index (v : Bit) : (s.driveClk v).index = s.index := rfl
@[simp] theorem State.driveClk_drawSel (v : Bit) : (s.driveClk v).drawSel = s.drawSel := rfl
@[simp] theorem State.driveClk_swapPending (v : Bit) : (s.driveClk v).swapPending = s.swapPending := rfl
@[simp] theorem State.driveClk_plane0 (v : Bit) : (s.driveClk v).plane0 = s.plane0 := rfl
@[simp] theorem State.driveClk_plane1 (v : Bit) : (s.driveClk v).plane1 = s.plane1 := rfl
@[simp] theorem State.driveClk_interval (v : Bit) : (s.driveClk v).interval = s.interval := rfl
@[simp] theorem State.driveClk_tickCnt (v : Bit) : (s.driveClk v).tickCnt = s.tickCnt := rfl
@[simp] theorem State.driveClk_pins (v : Bit) : (s.driveClk v).pins = { s.pins with clk := v } := rfl
@[simp] theorem State.driveClk_phase (v : Bit) : (s.driveClk v).phase = s.phase := rfl
@[simp] theorem State.driveClk_pass (v : Bit) : (s.driveClk v).pass = s.pass := rfl
@[simp] theorem State.driveClk_col (v : Bit) : (s.driveClk v).col = s.col := rfl
@[simp] theorem State.driveClk_trace (v : Bit) : (s.driveClk v).trace = s.trace ++ [.clk v] := rfl
@[simp] theorem State.driveClk_responses (v : Bit) : (s.driveClk v).responses = s.responses := rfl
@[simp] theorem State.driveClk_inputs (v : Bit) : (s.driveClk v).inputs = s.inputs := rfl

/-! ### driveAddr -/

@[simp] theorem State.driveAddr_topo (a : Nat) : (s.driveAddr a).topo = s.topo := rfl
@[simp] theorem State.driveAddr_index (a : Nat) : (s.driveAddr a).index = s.index := rfl
@[simp] theorem State.driveAddr_drawSel (a : Nat) : (s.driveAddr a).drawSel = s.drawSel := rfl
@[simp] theorem State.driveAddr_swapPending (a : Nat) : (s.driveAddr a).swapPending = s.swapPending := rfl
@[simp] theorem State.driveAddr_plane0 (a : Nat) : (s.driveAddr a).plane0 = s.plane0 := rfl
@[simp] theorem State.driveAddr_plane1 (a : Nat) : (s.driveAddr a).plane1 = s.plane1 := rfl
@[simp] theorem State.driveAddr_interval (a : Nat) : (s.driveAddr a).interval = s.interval := rfl
@[simp] theorem State.driveAddr_tickCnt (a : Nat) : (s.driveAddr a).tickCnt = s.tickCnt := rfl
@[simp] theorem State.driveAddr_pins (a : Nat) : (s.driveAddr a).pins = { s.pins with addr := a } := rfl
@[simp] theorem State.driveAddr_phase (a : Nat) : (s.driveAddr a).phase = s.phase := rfl
@[simp] theorem State.driveAddr_pass (a : Nat) : (s.driveAddr a).pass = s.pass := rfl
@[simp] theorem State.driveAddr_col (a : Nat) : (s.driveAddr a).col = s.col := rfl
@[simp] theorem State.driveAddr_trace (a : Nat) : (s.driveAddr a).trace = s.trace ++ [.addr a] := rfl
@[simp] theorem State.driveAddr_responses (a : Nat) : (s.driveAddr a).responses = s.responses := rfl
@[simp] theorem State.driveAddr_inputs (a : Nat) : (s.driveAddr a).inputs = s.inputs := rfl

/-! ### driveData -/

@[simp] theorem State.driveData_topo (d : List Colour) : (s.driveData d).topo = s.topo := rfl
@[simp] theorem State.driveData_index (d : List Colour) : (s.driveData d).index = s.index := rfl
@[simp] theorem State.driveData_drawSel (d : List Colour) : (s.driveData d).drawSel = s.drawSel := rfl
@[simp] theorem State.driveData_swapPending (d : List Colour) : (s.driveData d).swapPending = s.swapPending := rfl
@[simp] theorem State.driveData_plane0 (d : List Colour) : (s.driveData d).plane0 = s.plane0 := rfl
@[simp] theorem State.driveData_plane1 (d : List Colour) : (s.driveData d).plane1 = s.plane1 := rfl
@[simp] theorem State.driveData_interval (d : List Colour) : (s.driveData d).interval = s.interval := rfl
@[simp] theorem State.driveData_tickCnt (d : List Colour) : (s.driveData d).tickCnt = s.tickCnt := rfl
@[simp] theorem State.driveData_pins (d : List Colour) : (s.driveData d).pins = { s.pins with data := d } := rfl
@[simp] theorem State.driveData_phase (d : List Colour) : (s.driveData d).phase = s.phase := rfl
@[simp] theorem State.driveData_pass (d : List Colour) : (s.driveData d).pass = s.pass := rfl
@[simp] theorem State.driveData_col (d : List Colour) : (s.driveData d).col = s.col := rfl
@[simp] theorem State.driveData_trace (d : List Colour) : (s.driveData d).trace = s.trace ++ [.data d] := rfl
@[simp] theorem State.driveData_responses (d : List Colour) : (s.driveData d).responses = s.responses := rfl
@[simp] theorem State.driveData_inputs (d : List Colour) : (s.driveData d).inputs = s.inputs := rfl

/-! ### respond -/

@[simp] theorem State.respond_topo (w : PortBits) : (s.respond w).topo = s.topo := rfl
@[simp] theorem State.respond_index (w : PortBits) : (s.respond w).index = s.index := rfl
@[simp] theorem State.respond_drawSel (w : PortBits) : (s.respond w).drawSel = s.drawSel := rfl
@[simp] theorem State.respond_swapPending (w : PortBits) : (s.respond w).swapPending = s.swapPending := rfl
@[simp] theorem State.respond_plane0 (w : PortBits) : (s.respond w).plane0 = s.plane0 := rfl
@[simp] theorem State.respond_plane1 (w : PortBits) : (s.respond w).plane1 = s.plane1 := rfl
@[simp] theorem State.respond_interval (w : PortBits) : (s.respond w).interval = s.interval := rfl
@[simp] theorem State.respond_tickCnt (w : PortBits) : (s.respond w).tickCnt = s.tickCnt := rfl
@[simp] theorem State.respond_pins (w : PortBits) : (s.respond w).pins = s.pins := rfl
@[simp] theorem State.respond_phase (w : PortBits) : (s.respond w).phase = s.phase := rfl
@[simp] theorem State.respond_pass (w : PortBits) : (s.respond w).pass = s.pass := rfl
@[simp] theorem State.respond_col (w : PortBits) : (s.respond w).col = s.col := rfl
@[simp] theorem State.respond_trace (w : PortBits) : (s.respond w).trace = s.trace := rfl
@[simp] theorem State.respond_responses (w : PortBits) : (s.respond w).responses = s.responses ++ [w] := rfl
@[simp] theorem State.respond_inputs (w : PortBits) : (s.respond w).inputs = s.inputs := rfl

/-! ### requestSwap -/

@[simp] theorem State.requestSwap_topo : s.requestSwap.topo = s.topo := rfl
@[simp] theorem State.requestSwap_index : s.requestSwap.index = s.index := rfl
@[simp] theorem State.requestSwap_drawSel : s.requestSwap.drawSel = s.drawSel := rfl
@[simp] theorem State.requestSwap_swapPending : s.requestSwap.swapPending = 1#1 := rfl
@[simp] theorem State.requestSwap_plane0 : s.requestSwap.plane0 = s.plane0 := rfl
@[simp] theorem State.requestSwap_plane1 : s.requestSwap.plane1 = s.plane1 := rfl
@[simp] theorem State.requestSwap_interval : s.requestSwap.interval = s.interval := rfl
@[simp] theorem State.requestSwap_tickCnt : s.requestSwap.tickCnt = s.tickCnt := rfl
@[simp] theorem State.requestSwap_pins : s.requestSwap.pins = s.pins := rfl
@[simp] theorem State.requestSwap_phase : s.requestSwap.phase = s.phase := rfl
@[simp] theorem State.requestSwap_pass : s.requestSwap.pass = s.pass := rfl
@[simp] theorem State.requestSwap_col : s.requestSwap.col = s.col := rfl
@[simp] theorem State.requestSwap_trace : s.requestSwap.trace = s.trace := rfl
@[simp] theorem State.requestSwap_responses : s.requestSwap.responses = s.responses := rfl
@[simp] theorem State.requestSwap_inputs : s.requestSwap.inputs = s.inputs := rfl

/-! ### exchangeRoles -/

@[simp] theorem State.exchangeRoles_topo : s.exchangeRoles.topo = s.topo := rfl
@[simp] theorem State.exchangeRoles_index : s.exchangeRoles.index = s.index := rfl
@[simp] theorem State.exchangeRoles_drawSel : s.exchangeRoles.drawSel = s.drawSel ^^^ 1#1 := rfl
@[simp] theorem State.exchangeRoles_swapPending : s.exchangeRoles.swapPending = 0#1 := rfl
@[simp] theorem State.exchangeRoles_plane0 : s.exchangeRoles.plane0 = s.plane0 := rfl
@[simp] theorem State.exchangeRoles_plane1 : s.exchangeRoles.plane1 = s.plane1 := rfl
@[simp] theorem State.exchangeRoles_interval : s.exchangeRoles.interval = s.interval := rfl
@[simp] theorem State.exchangeRoles_tickCnt : s.exchangeRoles.tickCnt = s.tickCnt := rfl
@[simp] theorem State.exchangeRoles_pins : s.exchangeRoles.pins = s.pins := rfl
@[simp] theorem State.exchangeRoles_phase : s.exchangeRoles.phase = s.phase := rfl
@[simp] theorem State.exchangeRoles_pass : s.exchangeRoles.pass = s.pass := rfl
@[simp] theorem State.exchangeRoles_col : s.exchangeRoles.col = s.col := rfl
@[simp] theorem State.exchangeRoles_trace : s.exchangeRoles.trace = s.trace := rfl
@[simp] theorem State.exchangeRoles_responses : s.exchangeRoles.responses = s.responses := rfl
@[simp] theorem State.exchangeRoles_inputs : s.exchangeRoles.inputs = s.inputs := rfl

/-! ### memWrite -/

@[simp] theorem State.memWrite_topo (b : Bit) (a : Nat) (v : Byte) : (s.memWrite b a v).topo = s.topo := by
  unfold State.memWrite; split <;> rfl
@[simp] theorem State.memWrite_index (b : Bit) (a : Nat) (v : Byte) : (s.memWrite b a v).index = s.index := by
  unfold State.memWrite; split <;> rfl
@[simp] theorem State.memWrite_drawSel (b : Bit) (a : Nat) (v : Byte) : (s.memWrite b a v).drawSel = s.drawSel := by
  unfold State.memWrite; split <;> rfl
@[simp] theorem State.memWrite_swapPending (b : Bit) (a : Nat) (v : Byte) : (s.memWrite b a v).swapPending = s.swapPending := by
  unfold State.memWrite; split <;> rfl
@[simp] theorem State.memWrite_interval (b : Bit) (a : Nat) (v : Byte) : (s.memWrite b a v).interval = s.interval := by
  unfold State.memWrite; split <;> rfl
@[simp] theorem State.memWrite_tickCnt (b : Bit) (a : Nat) (v : Byte) : (s.memWrite b a v).tickCnt = s.tickCnt := by
  unfold State.memWrite; split <;> rfl
@[simp] theorem State.memWrite_pins (b : Bit) (a : Nat) (v : Byte) : (s.memWrite b a v).pins = s.pins := by
  unfold State.memWrite; split <;> rfl
@[simp] theorem State.memWrite_phase (b : Bit) (a : Nat) (v : Byte) : (s.memWrite b a v).phase = s.phase := by
  unfold State.memWrite; split <;> rfl
@[simp] theorem State.memWrite_pass (b : Bit) (a : Nat) (v : Byte) : (s.memWrite b a v).pass = s.pass := by
  unfold State.memWrite; split <;> rfl
@[simp] theorem State.memWrite_col (b : Bit) (a : Nat) (v : Byte) : (s.memWrite b a v).col = s.col := by
  unfold State.memWrite; split <;> rfl
@[simp] theorem State.memWrite_trace (b : Bit) (a : Nat) (v : Byte) : (s.memWrite b a v).trace = s.trace := by
  unfold State.memWrite; split <;> rfl
@[simp] theorem State.memWrite_responses (b : Bit) (a : Nat) (v : Byte) : (s.memWrite b a v).responses = s.responses := by
  unfold State.memWrite; split <;> rfl
@[simp] theorem State.memWrite_inputs (b : Bit) (a : Nat) (v : Byte) : (s.memWrite b a v).inputs = s.inputs := by
  unfold State.memWrite; split <;> rfl

/-! ### Reading the planes -/

/-- A read sees the planes, the topology record's contents after reset, and nothing else of the state. -/
theorem State.memRead_congr {s t : State} (hT : t.topo = s.topo) (h0 : t.plane0 = s.plane0) (h1 : t.plane1 = s.plane1) (b : Bit) (a : Nat) :
    t.memRead b a = s.memRead b a := by
  simp [State.memRead, State.plane, hT, h0, h1]

/-- What the chains carry depends on the topology, the index, the roles and the planes alone (41 R85). -/
theorem State.presented_congr {s t : State} (hT : t.topo = s.topo) (hi : t.index = s.index) (hd : t.drawSel = s.drawSel)
    (h0 : t.plane0 = s.plane0) (h1 : t.plane1 = s.plane1) (p k : Nat) : t.presented p k = s.presented p k := by
  simp [State.presented, State.lineValue, State.displaySel, State.memRead_congr hT h0 h1, hT, hi, hd]

theorem State.displaySel_ne_drawSel : s.displaySel ≠ s.drawSel := by
  have h : ∀ b : Bit, b ^^^ 1#1 ≠ b := by decide
  exact h s.drawSel

@[simp] theorem State.presented_length (p k : Nat) : (s.presented p k).length = s.topo.nChains := by
  simp [State.presented]

end Sys2Proof.Machine
end

