-- ==== Sys2Proof/Laws/Memory.lean ====
section
/-! SUPPORT. The laws of the planes' memory: read after write, every other place left alone, the canonical form kept (20_memory.md R30, R46). -/

namespace Sys2Proof.Machine

@[simp] theorem Memory.lookup_write_same (m : List Host.Cell) (a : Nat) (v : Byte) :
    Memory.lookup (Memory.write m a v) a = some v := by
  induction m with
  | nil => simp [Memory.write, Memory.lookup]
  | cons c rest ih =>
    obtain ⟨b, w⟩ := c
    simp only [Memory.write]
    split
    · simp [Memory.lookup]
    · split
      · simp [Memory.lookup]
      · have hne : b ≠ a := by omega
        simp [Memory.lookup, hne, ih]

theorem Memory.lookup_write_other (m : List Host.Cell) (a : Nat) (v : Byte) {a' : Nat} (h : a' ≠ a) :
    Memory.lookup (Memory.write m a v) a' = Memory.lookup m a' := by
  induction m with
  | nil => simp [Memory.write, Memory.lookup, h.symm]
  | cons c rest ih =>
    obtain ⟨b, w⟩ := c
    simp only [Memory.write]
    split
    · simp [Memory.lookup, h.symm]
    · split
      · next h1 h2 =>
        subst h2
        simp [Memory.lookup, h.symm]
      · simp [Memory.lookup, ih]

/-- The cells of a plane after a store are the old ones and the new one. -/
theorem Memory.mem_write {m : List Host.Cell} {a : Nat} {v : Byte} {c : Host.Cell} (h : c ∈ Memory.write m a v) :
    c = (a, v) ∨ c ∈ m := by
  induction m with
  | nil => simpa [Memory.write] using h
  | cons d rest ih =>
    obtain ⟨b, w⟩ := d
    simp only [Memory.write] at h
    split at h
    · simpa using h
    · split at h
      · rcases List.mem_cons.1 h with h | h
        · exact .inl h
        · exact .inr (List.mem_cons_of_mem _ h)
      · rcases List.mem_cons.1 h with h | h
        · exact .inr (h ▸ List.mem_cons_self)
        · exact (ih h).imp_right (List.mem_cons_of_mem _)

/-- A store keeps the canonical form. -/
theorem Memory.write_wf {m : List Host.Cell} (h : Memory.wf m) (a : Nat) (v : Byte) : Memory.wf (Memory.write m a v) := by
  induction m with
  | nil => simp [Memory.write, Memory.wf]
  | cons c rest ih =>
    obtain ⟨b, w⟩ := c
    obtain ⟨hb, hrest⟩ := List.pairwise_cons.1 h
    simp only [Memory.write]
    split
    · next hab =>
      refine List.pairwise_cons.2 ⟨?_, h⟩
      intro d hd
      rcases List.mem_cons.1 hd with rfl | hd
      · exact hab
      · exact Nat.lt_trans hab (hb d hd)
    · split
      · next _ hab =>
        subst hab
        exact List.pairwise_cons.2 ⟨hb, hrest⟩
      · next h1 h2 =>
        refine List.pairwise_cons.2 ⟨?_, ih hrest⟩
        intro d hd
        rcases Memory.mem_write hd with rfl | hd
        · show b < a
          omega
        · exact hb d hd

/-- Read after write at the same place (20_memory.md R46). -/
@[simp] theorem State.memRead_memWrite_same (s : State) (b : Bit) (a : Nat) (v : Byte) : (s.memWrite b a v).memRead b a = v := by
  unfold State.memRead State.memWrite State.plane
  by_cases hb : b = 0#1 <;> simp [hb]

/-- A store changes nothing else (20_memory.md R30). -/
theorem State.memRead_memWrite_other (s : State) (b : Bit) (a : Nat) (v : Byte) {b' : Bit} {a' : Nat} (h : b' ≠ b ∨ a' ≠ a) :
    (s.memWrite b a v).memRead b' a' = s.memRead b' a' := by
  have hbit : ∀ x : Bit, x = 0#1 ∨ x = 1#1 := by decide
  unfold State.memRead State.memWrite State.plane
  rcases hbit b with rfl | rfl <;> rcases hbit b' with rfl | rfl <;> simp_all [Memory.lookup_write_other]

/-- A store keeps both planes canonical. -/
theorem State.memWrite_wf {s : State} (h0 : Memory.wf s.plane0) (h1 : Memory.wf s.plane1) (b : Bit) (a : Nat) (v : Byte) :
    Memory.wf (s.memWrite b a v).plane0 ∧ Memory.wf (s.memWrite b a v).plane1 := by
  unfold State.memWrite
  split
  · exact ⟨Memory.write_wf h0 a v, h1⟩
  · exact ⟨h0, Memory.write_wf h1 a v⟩

end Sys2Proof.Machine
end

