-- ==== Sys2Proof/Laws/PerInstr.lean ====
section
/-! SUPPORT. Facts about every operation as syntax, one lemma per constructor. -/

namespace Sys2Proof.Laws

/-- The word of an operation has the fixed bits of its row of spec/opcode_table.json (30_encoding.md R52 to R57). -/
def FormatOfRow.Statement (i : Instr) : Prop :=
  match encode i with
  | .cmd w => ∃ r ∈ cmdRows, r.mnemonic = i.mnemonic ∧ r.fits w = true
  | .evt level => i.mnemonic = "TICK" ∧ level = 1#1
  | .uop code => code ≠ 0#3

/-- A mask of ones over the upper field keeps that field alone. -/
theorem append_and_mask {m n : Nat} (a : BitVec m) (b : BitVec n) : (a ++ b) &&& (BitVec.allOnes m ++ 0#n) = a ++ 0#n := by
  rw [BitVec.and_append, BitVec.and_allOnes, BitVec.and_zero]

theorem FormatOfRow.setpix (x y : Nat) (c : Byte) : FormatOfRow.Statement (.setpix x y c) := by
  refine ⟨⟨"SETPIX", 0x10000000#32, 0xF0000000#32⟩, by simp [cmdRows], rfl, ?_⟩
  simp only [CmdRow.fits, beq_iff_eq]
  have e : (0x1#4 ++ c ++ BitVec.ofNat 10 y ++ BitVec.ofNat 10 x : BitVec 32) =
      0x1#4 ++ (c ++ BitVec.ofNat 10 y ++ BitVec.ofNat 10 x : BitVec 28) := by
    rw [BitVec.append_assoc, BitVec.append_assoc, BitVec.append_assoc]
    rfl
  rw [e]
  exact append_and_mask 0x1#4 (c ++ BitVec.ofNat 10 y ++ BitVec.ofNat 10 x)

theorem FormatOfRow.swapreq : FormatOfRow.Statement .swapreq :=
  ⟨⟨"SWAPREQ", 0x20000000#32, 0xFFFFFFFF#32⟩, by simp [cmdRows], rfl, by decide⟩

theorem FormatOfRow.drawbuf : FormatOfRow.Statement .drawbuf :=
  ⟨⟨"DRAWBUF", 0x30000000#32, 0xFFFFFFFF#32⟩, by simp [cmdRows], rfl, by decide⟩

theorem FormatOfRow.regper (n : Nat) : FormatOfRow.Statement (.regper n) := by
  refine ⟨⟨"REGPER", 0x40000000#32, 0xFFFF0000#32⟩, by simp [cmdRows], rfl, ?_⟩
  simp only [CmdRow.fits, beq_iff_eq]
  exact append_and_mask (0x4#4 ++ 0#12) (BitVec.ofNat 16 n)

theorem FormatOfRow.tick : FormatOfRow.Statement .tick := ⟨rfl, rfl⟩

theorem FormatOfRow.blank : FormatOfRow.Statement .blank := by
  simp [FormatOfRow.Statement, encode]

theorem FormatOfRow.advance : FormatOfRow.Statement .advance := by
  simp [FormatOfRow.Statement, encode]

theorem FormatOfRow.swapchk : FormatOfRow.Statement .swapchk := by
  simp [FormatOfRow.Statement, encode]

theorem FormatOfRow.setaddr : FormatOfRow.Statement .setaddr := by
  simp [FormatOfRow.Statement, encode]

theorem FormatOfRow.shiftrow : FormatOfRow.Statement .shiftrow := by
  simp [FormatOfRow.Statement, encode]

theorem FormatOfRow.latch : FormatOfRow.Statement .latch := by
  simp [FormatOfRow.Statement, encode]

theorem FormatOfRow.unblank : FormatOfRow.Statement .unblank := by
  simp [FormatOfRow.Statement, encode]

end Sys2Proof.Laws
end

