-- ==== Sys2Proof/Laws/Topology.lean ====
section
/-! SUPPORT. What a well-formed topology record gives (00_scope.md R7), named fact by named fact. -/

namespace Sys2Proof

/-- The facts of 00_scope.md R7, by name. -/
structure Topology.Facts (T : Topology) : Prop where
  width_pos : 1 ≤ T.width
  height_pos : 1 ≤ T.height
  rows_pos : 1 ≤ T.rowsPerScan
  rows_le : T.rowsPerScan ≤ 2 ^ T.addrBits
  chains : T.nChains = 1 ∨ T.nChains = 2
  passes : T.nPasses = 1 ∨ T.nPasses = 2
  height_eq : T.height = T.rowsPerScan * T.nPasses * T.nChains
  inside : ∀ p < T.nPasses, ∀ c < T.nChains, (T.lane p c).rowBase + T.rowsPerScan ≤ T.height
  disjoint : ∀ p < T.nPasses, ∀ c < T.nChains, ∀ p' < T.nPasses, ∀ c' < T.nChains, (p, c) ≠ (p', c') →
    (T.lane p c).rowBase + T.rowsPerScan ≤ (T.lane p' c').rowBase ∨
      (T.lane p' c').rowBase + T.rowsPerScan ≤ (T.lane p c).rowBase
  size_le : T.width * T.height ≤ 2 ^ 20
  interval_pos : 1 ≤ T.intervalBits
  addr_pos : 1 ≤ T.addrBits
  shaped : T.lanesShaped = true

theorem Topology.mem_laneIds (T : Topology) (p c : Nat) : (p, c) ∈ T.laneIds ↔ p < T.nPasses ∧ c < T.nChains := by
  simp [Topology.laneIds]

theorem Topology.wf_facts {T : Topology} (h : T.wf = true) : T.Facts := by
  simp only [Topology.wf, Bool.and_eq_true, decide_eq_true_eq, Topology.lanesInside, Topology.lanesDisjoint,
    List.all_eq_true, Topology.lanesApart, Bool.or_eq_true, beq_iff_eq] at h
  obtain ⟨⟨⟨⟨⟨⟨⟨⟨⟨⟨hw, hh⟩, hr, hr2⟩, hc, hp⟩, hhe⟩, hin⟩, hdis⟩, hsz⟩, hiv⟩, hab⟩, hsh⟩ := h
  refine ⟨hw, hh, hr, hr2, hc, hp, hhe, ?_, ?_, hsz, hiv, hab, hsh⟩
  · intro p hp' c hc'
    exact hin (p, c) ((T.mem_laneIds p c).2 ⟨hp', hc'⟩)
  · intro p hp1 c hc1 p' hp2 c' hc2 hne
    exact (hdis (p, c) ((T.mem_laneIds p c).2 ⟨hp1, hc1⟩) (p', c') ((T.mem_laneIds p' c').2 ⟨hp2, hc2⟩)).resolve_left hne

theorem Topology.Facts.wf {T : Topology} (f : T.Facts) : T.wf = true := by
  simp only [Topology.wf, Bool.and_eq_true, decide_eq_true_eq, Topology.lanesInside, Topology.lanesDisjoint,
    List.all_eq_true, Topology.lanesApart, Bool.or_eq_true, beq_iff_eq]
  refine ⟨⟨⟨⟨⟨⟨⟨⟨⟨⟨f.width_pos, f.height_pos⟩, f.rows_pos, f.rows_le⟩, f.chains, f.passes⟩, f.height_eq⟩, ?_⟩, ?_⟩,
    f.size_le⟩, f.interval_pos⟩, f.addr_pos⟩, f.shaped⟩
  · rintro ⟨p, c⟩ h
    obtain ⟨hp, hc⟩ := (T.mem_laneIds p c).1 h
    exact f.inside p hp c hc
  · rintro ⟨p, c⟩ h ⟨p', c'⟩ h'
    obtain ⟨hp, hc⟩ := (T.mem_laneIds p c).1 h
    obtain ⟨hp', hc'⟩ := (T.mem_laneIds p' c').1 h'
    by_cases e : (p, c) = (p', c')
    · exact .inl e
    · exact .inr (f.disjoint p hp c hc p' hp' c' hc' e)

/-- A row a lane carries is a row of the buffer (20_memory.md R35). -/
theorem Topology.laneRow_lt {T : Topology} (f : T.Facts) {p c i : Nat} (hp : p < T.nPasses) (hc : c < T.nChains)
    (hi : i < T.rowsPerScan) : T.laneRow p c i < T.height := by
  have := f.inside p hp c hc
  unfold Topology.laneRow
  split <;> omega

/-- A column a lane carries is a column of the buffer (20_memory.md R35). -/
theorem Topology.laneColumn_lt {T : Topology} {p c k : Nat} (hk : k < T.width) : T.laneColumn p c k < T.width := by
  unfold Topology.laneColumn
  split <;> omega

theorem Topology.bufferRow_lt {T : Topology} {y : Nat} (hy : y < T.height) : T.bufferRow y < T.height := by
  unfold Topology.bufferRow
  split <;> omega

/-- A pixel of the buffer has its offset in the plane (20_memory.md R30, R31). -/
theorem Topology.pixelOffset_lt {T : Topology} {r x : Nat} (hr : r < T.height) (hx : x < T.width) :
    T.pixelOffset r x < T.planeSize := by
  unfold Topology.pixelOffset Topology.planeSize
  calc r * T.width + x < (r + 1) * T.width := by rw [Nat.succ_mul]; omega
    _ ≤ T.height * T.width := Nat.mul_le_mul_right _ hr
    _ = T.width * T.height := Nat.mul_comm ..

/-- Two pixels of the buffer at one offset are one pixel. -/
theorem Topology.pixelOffset_inj {T : Topology} {r x r' x' : Nat} (hx : x < T.width) (hx' : x' < T.width)
    (h : T.pixelOffset r x = T.pixelOffset r' x') : r = r' ∧ x = x' := by
  unfold Topology.pixelOffset at h
  have hpos : 0 < T.width := by omega
  have h1 : (r * T.width + x) / T.width = (r' * T.width + x') / T.width := by rw [h]
  rw [Nat.mul_comm r, Nat.mul_comm r', Nat.mul_add_div hpos, Nat.mul_add_div hpos, Nat.div_eq_of_lt hx,
    Nat.div_eq_of_lt hx'] at h1
  have hr : r = r' := by omega
  subst hr
  exact ⟨rfl, by omega⟩

theorem Topology.intervalValue_of_lt {T : Topology} {n : Nat} (h : n < 2 ^ T.intervalBits) : T.intervalValue n = n := by
  simp [Topology.intervalValue, h]

/-- Whatever `n` is, the interval register holds a value of its width (10_state.md R17). -/
theorem Topology.intervalValue_lt (T : Topology) (n : Nat) : T.intervalValue n < 2 ^ T.intervalBits := by
  unfold Topology.intervalValue
  split
  · assumption
  · exact Nat.mod_lt _ (Nat.two_pow_pos _)

end Sys2Proof
end

