-- ==== Sys2Proof/Laws/Shift.lean ====
section
/-! SUPPORT. Everything the loops of `SHIFTROW` can do (41 R85), said once. -/

namespace Sys2Proof.Machine

/-- What the pins and the trace are after events that leave the rest of the state alone. -/
def State.emit (s : State) (es : List PinEvent) : State :=
  { s with pins := s.pins.replay es, trace := s.trace ++ es }

@[simp] theorem State.emit_nil (s : State) : s.emit [] = s := by simp [State.emit, Pins.replay]

theorem State.emit_append (s : State) (es fs : List PinEvent) : s.emit (es ++ fs) = (s.emit es).emit fs := by
  simp [State.emit, Pins.replay, List.append_assoc]

theorem State.driveBlank_eq_emit (s : State) (v : Bit) : s.driveBlank v = s.emit [.blank v] := rfl
theorem State.driveLat_eq_emit (s : State) (v : Bit) : s.driveLat v = s.emit [.lat v] := rfl
theorem State.driveAddr_eq_emit (s : State) (a : Nat) : s.driveAddr a = s.emit [.addr a] := rfl

/-- A clock pulse is its three events (40 R77). -/
theorem State.clockPulse_eq_emit (s : State) : s.clockPulse = s.emit (pulseEvents (s.presented s.pass s.col)) := by
  simp [State.clockPulse, State.emit, State.driveData, State.driveClk, pulseEvents, Pins.replay, Pins.apply]

/-- The events so far, and the loop counters. -/
theorem State.emit_presented (s : State) (es : List PinEvent) (p k p' k' : Nat) :
    ((s.emit es).setLoop p k).presented p' k' = s.presented p' k' :=
  State.presented_congr rfl rfl rfl rfl rfl p' k'

theorem State.setLoop_emit (s : State) (es : List PinEvent) (p k : Nat) : (s.setLoop p k).emit es = (s.emit es).setLoop p k := rfl

@[simp] theorem State.setLoop_setLoop (s : State) (p k p' k' : Nat) : (s.setLoop p k).setLoop p' k' = s.setLoop p' k' := rfl

/-- A run of clock pulses at the columns of a list is its events, up to the loop counters. -/
theorem State.pulses_eq_emit (s : State) (p : Nat) (ks : List Nat) :
    (ks.foldl (fun s k => (s.setLoop p k).clockPulse) s).setLoop 0 0 =
      (s.emit (ks.flatMap (fun k => pulseEvents (s.presented p k)))).setLoop 0 0 := by
  induction ks generalizing s with
  | nil => simp
  | cons k ks ih =>
    simp only [List.foldl_cons, List.flatMap_cons]
    have hp : (s.setLoop p k).clockPulse = (s.emit (pulseEvents (s.presented p k))).setLoop p k := by
      rw [State.clockPulse_eq_emit]; rfl
    rw [ih, hp, State.emit_append]
    have : ∀ j, ((s.emit (pulseEvents (s.presented p k))).setLoop p k).presented p j = s.presented p j :=
      fun j => State.emit_presented s _ p k p j
    simp only [this]
    rfl

/-- One pass is its events (40 R77), up to the loop counters. -/
theorem State.shiftPass_eq_emit (s : State) (p : Nat) :
    (s.shiftPass p).setLoop 0 0 = (s.emit (s.passEvents p)).setLoop 0 0 :=
  State.pulses_eq_emit s p (List.range s.topo.width)

/-- The events of a pass depend on the topology, the index, the roles and the planes alone. -/
theorem State.passEvents_congr {s t : State} (hT : t.topo = s.topo) (hi : t.index = s.index) (hd : t.drawSel = s.drawSel)
    (h0 : t.plane0 = s.plane0) (h1 : t.plane1 = s.plane1) (p : Nat) : t.passEvents p = s.passEvents p := by
  simp only [State.passEvents, hT, State.presented_congr hT hi hd h0 h1]

theorem State.shiftPass_setLoop (s : State) (p a b : Nat) :
    ((s.setLoop a b).shiftPass p).setLoop 0 0 = (s.shiftPass p).setLoop 0 0 := by
  rw [State.shiftPass_eq_emit, State.shiftPass_eq_emit]
  have : (s.setLoop a b).passEvents p = s.passEvents p := State.passEvents_congr rfl rfl rfl rfl rfl p
  rw [this]
  rfl

/-- A run of passes is its events, up to the loop counters. -/
theorem State.passes_eq_emit (s : State) (ps : List Nat) :
    (ps.foldl State.shiftPass s).setLoop 0 0 = (s.emit (ps.flatMap s.passEvents)).setLoop 0 0 := by
  have loop : ∀ (ps : List Nat) (u v : State), u.setLoop 0 0 = v.setLoop 0 0 →
      (ps.foldl State.shiftPass u).setLoop 0 0 = (ps.foldl State.shiftPass v).setLoop 0 0 := by
    intro ps
    induction ps with
    | nil => intro u v h; exact h
    | cons p ps ih =>
      intro u v h
      refine ih _ _ ?_
      rw [← State.shiftPass_setLoop u p 0 0, ← State.shiftPass_setLoop v p 0 0, h]
  induction ps generalizing s with
  | nil => simp
  | cons p ps ih =>
    simp only [List.foldl_cons, List.flatMap_cons]
    rw [loop ps _ _ (State.shiftPass_eq_emit s p), ih, State.emit_append]
    have : (s.emit (s.passEvents p)).passEvents = s.passEvents :=
      funext (fun q => State.passEvents_congr rfl rfl rfl rfl rfl q)
    rw [this]

/-- Everything `SHIFTROW` does (41 R85): its events, and the loop counters back at 0. -/
theorem State.shiftRows_eq (s : State) : s.shiftRows = (s.emit s.shiftEvents).setLoop 0 0 := by
  unfold State.shiftRows
  rw [State.passes_eq_emit, State.driveLat_eq_emit, State.shiftEvents]
  have : (s.emit [PinEvent.lat 0#1]).passEvents = s.passEvents :=
    funext (fun q => State.passEvents_congr rfl rfl rfl rfl rfl q)
  rw [this, ← State.emit_append]
  rfl

/-! ### The pins after the events -/

theorem Pins.replay_append (p : Pins) (es fs : List PinEvent) : p.replay (es ++ fs) = (p.replay es).replay fs := by
  simp [Pins.replay]

@[simp] theorem Pins.replay_nil (p : Pins) : p.replay [] = p := rfl

@[simp] theorem Pins.replay_pulse (p : Pins) (d : List Colour) :
    p.replay (pulseEvents d) = { p with data := d, clk := 0#1 } := rfl

/-- After clock pulses only `DATA` and `CLK` have changed; `DATA` holds what the last pulse presented. -/
theorem Pins.replay_pulses (p : Pins) (f : Nat → List Colour) (n : Nat) (hn : 0 < n) :
    p.replay ((List.range n).flatMap (fun k => pulseEvents (f k))) = { p with data := f (n - 1), clk := 0#1 } := by
  induction n with
  | zero => omega
  | succ n ih =>
    rw [List.range_succ, List.flatMap_append, Pins.replay_append]
    by_cases h : n = 0
    · subst h; simp
    · rw [ih (by omega)]; simp

/-- The pins after `SHIFTROW` (41 R85). -/
theorem State.replay_shiftEvents (s : State) (p : Pins) (hw : 0 < s.topo.width) (hp : 0 < s.topo.nPasses) :
    p.replay s.shiftEvents = { p with lat := 0#1, clk := 0#1, data := s.lastPresented } := by
  have step1 : ∀ (q : Pins) (n : Nat), 0 < n → q.replay ((List.range n).flatMap s.passEvents) =
      { q with clk := 0#1, data := s.presented (n - 1) (s.topo.width - 1) } := by
    intro q n hn
    induction n with
    | zero => omega
    | succ n ih =>
      rw [List.range_succ, List.flatMap_append, Pins.replay_append]
      by_cases h : n = 0
      · subst h
        simp [State.passEvents, Pins.replay_pulses _ _ _ hw]
      · rw [ih (by omega)]
        simp [State.passEvents, Pins.replay_pulses _ _ _ hw]
  have : p.replay s.shiftEvents = (p.apply (.lat 0#1)).replay ((List.range s.topo.nPasses).flatMap s.passEvents) := rfl
  rw [this, step1 _ _ hp]
  rfl

/-- `SHIFTROW` makes `1 + 3 * N_PASSES * WIDTH` events (40 R78). -/
theorem State.shiftEvents_length (s : State) : s.shiftEvents.length = 1 + 3 * s.topo.nPasses * s.topo.width := by
  have hpass : ∀ p, (s.passEvents p).length = 3 * s.topo.width := by
    intro p
    simp [State.passEvents, pulseEvents, List.length_flatMap, Nat.mul_comm]
  simp only [State.shiftEvents, List.length_cons, List.length_flatMap, hpass]
  simp
  ring

end Sys2Proof.Machine
end

