-- ==== Sys2Proof/Laws/Scan.lean ====
section
/-! SUPPORT. Everything a scan step can do (40 R70), said once. -/

namespace Sys2Proof.Machine

/-- The state in which the rows of a scan step are shifted: the index advanced, a due swap made (40 R70). -/
def State.atShift (s : State) : State := s.advanceIndex.swapCheck

/-- The pins after a scan step (60_exceptions.md R144): visible, latch and clock low, the address and the last values presented. -/
def State.restPins (s : State) : Pins where
  blank := 0#1
  lat := 0#1
  clk := 0#1
  addr := s.index
  data := s.lastPresented

/-- A swap check changes at most the role and the flag (42 R102). -/
theorem State.swapCheck_cases (s : State) :
    (s.index = 0 ∧ s.swapPending = 1#1 ∧ s.swapCheck = { s with drawSel := s.drawSel ^^^ 1#1, swapPending := 0#1 }) ∨
      (¬(s.index = 0 ∧ s.swapPending = 1#1) ∧ s.swapCheck = s) := by
  unfold State.swapCheck State.swapDue State.exchangeRoles
  by_cases h : s.index = 0 ∧ s.swapPending = 1#1
  · exact .inl ⟨h.1, h.2, by simp [h.1, h.2]⟩
  · refine .inr ⟨h, ?_⟩
    split
    · next hd =>
      simp only [Bool.and_eq_true, beq_iff_eq] at hd
      exact absurd hd h
    · rfl

section
variable (s : State)

@[simp] theorem State.swapCheck_topo : s.swapCheck.topo = s.topo := by unfold State.swapCheck; split <;> rfl
@[simp] theorem State.swapCheck_index : s.swapCheck.index = s.index := by unfold State.swapCheck; split <;> rfl
@[simp] theorem State.swapCheck_plane0 : s.swapCheck.plane0 = s.plane0 := by unfold State.swapCheck; split <;> rfl
@[simp] theorem State.swapCheck_plane1 : s.swapCheck.plane1 = s.plane1 := by unfold State.swapCheck; split <;> rfl
@[simp] theorem State.swapCheck_interval : s.swapCheck.interval = s.interval := by unfold State.swapCheck; split <;> rfl
@[simp] theorem State.swapCheck_tickCnt : s.swapCheck.tickCnt = s.tickCnt := by unfold State.swapCheck; split <;> rfl
@[simp] theorem State.swapCheck_pins : s.swapCheck.pins = s.pins := by unfold State.swapCheck; split <;> rfl
@[simp] theorem State.swapCheck_phase : s.swapCheck.phase = s.phase := by unfold State.swapCheck; split <;> rfl
@[simp] theorem State.swapCheck_pass : s.swapCheck.pass = s.pass := by unfold State.swapCheck; split <;> rfl
@[simp] theorem State.swapCheck_col : s.swapCheck.col = s.col := by unfold State.swapCheck; split <;> rfl
@[simp] theorem State.swapCheck_trace : s.swapCheck.trace = s.trace := by unfold State.swapCheck; split <;> rfl
@[simp] theorem State.swapCheck_responses : s.swapCheck.responses = s.responses := by unfold State.swapCheck; split <;> rfl
@[simp] theorem State.swapCheck_inputs : s.swapCheck.inputs = s.inputs := by unfold State.swapCheck; split <;> rfl

@[simp] theorem State.atShift_topo : s.atShift.topo = s.topo := by simp [State.atShift, State.advanceIndex]
@[simp] theorem State.atShift_index : s.atShift.index = (s.index + 1) % s.topo.rowsPerScan := by
  simp [State.atShift, State.advanceIndex]
@[simp] theorem State.atShift_plane0 : s.atShift.plane0 = s.plane0 := by simp [State.atShift, State.advanceIndex]
@[simp] theorem State.atShift_plane1 : s.atShift.plane1 = s.plane1 := by simp [State.atShift, State.advanceIndex]
@[simp] theorem State.atShift_interval : s.atShift.interval = s.interval := by simp [State.atShift, State.advanceIndex]
@[simp] theorem State.atShift_tickCnt : s.atShift.tickCnt = s.tickCnt := by simp [State.atShift, State.advanceIndex]
@[simp] theorem State.atShift_pins : s.atShift.pins = s.pins := by simp [State.atShift, State.advanceIndex]
@[simp] theorem State.atShift_trace : s.atShift.trace = s.trace := by simp [State.atShift, State.advanceIndex]
@[simp] theorem State.atShift_responses : s.atShift.responses = s.responses := by simp [State.atShift, State.advanceIndex]
@[simp] theorem State.atShift_inputs : s.atShift.inputs = s.inputs := by simp [State.atShift, State.advanceIndex]
end

/-- A swap check commutes with what it does not read. -/
theorem State.swapCheck_emit (s : State) (es : List PinEvent) (p : BitVec 3) :
    ((s.emit es).setPhase p).swapCheck = (s.swapCheck.emit es).setPhase p := by
  unfold State.swapCheck State.swapDue
  by_cases h : (s.index == 0 && s.swapPending == 1#1) = true
  · have h' : ((((s.emit es).setPhase p).index == 0 && ((s.emit es).setPhase p).swapPending == 1#1) = true) := h
    rw [if_pos h', if_pos h]; rfl
  · have h' : ¬((((s.emit es).setPhase p).index == 0 && ((s.emit es).setPhase p).swapPending == 1#1) = true) := h
    rw [if_neg h', if_neg h]

/-- Steps 1 to 3 of a scan step. -/
theorem State.scan_toSwap (s : State) :
    ((s.enterScanStep.assertBlank.setPhase 2#3).advanceIndex.setPhase 3#3).swapCheck =
      (s.atShift.emit [.blank 1#1]).setPhase 3#3 :=
  State.swapCheck_emit s.advanceIndex [.blank 1#1] 3#3

/-- Step 4: the address driven is the index, which fits the bus. -/
theorem State.setRowAddress_eq (s : State) (es : List PinEvent) (p : BitVec 3) (h : s.index < 2 ^ s.topo.addrBits) :
    ((s.emit es).setPhase p).setRowAddress = (s.emit (es ++ [.addr s.index])).setPhase p := by
  have hmod : ((s.emit es).setPhase p).index % 2 ^ ((s.emit es).setPhase p).topo.addrBits = s.index := Nat.mod_eq_of_lt h
  unfold State.setRowAddress
  rw [hmod, State.emit_append]
  rfl

/-- Step 5 after other events. -/
theorem State.shiftRows_emit (s : State) (es : List PinEvent) (p : BitVec 3) :
    ((s.emit es).setPhase p).shiftRows = ((s.emit (es ++ s.shiftEvents)).setLoop 0 0).setPhase p := by
  rw [State.shiftRows_eq]
  have hpass : ((s.emit es).setPhase p).passEvents = s.passEvents :=
    funext (fun q => State.passEvents_congr rfl rfl rfl rfl rfl q)
  have hev : ((s.emit es).setPhase p).shiftEvents = s.shiftEvents := by
    unfold State.shiftEvents
    rw [hpass]
    rfl
  rw [hev, State.emit_append]
  rfl

/-- Everything a scan step does (40 R70, R77), on a topology whose index fits its address bus. -/
theorem State.scanStep_eq (s : State) (hr : 0 < s.topo.rowsPerScan) (hle : s.topo.rowsPerScan ≤ 2 ^ s.topo.addrBits) :
    s.scanStep = ((s.atShift.emit s.atShift.scanEvents).setLoop 0 0).setPhase 0#3 := by
  have hlt : s.atShift.index < 2 ^ s.atShift.topo.addrBits := by
    rw [State.atShift_index, State.atShift_topo]
    exact Nat.lt_of_lt_of_le (Nat.mod_lt _ hr) hle
  generalize hu : s.atShift = u at hlt
  unfold State.scanStep
  rw [State.scan_toSwap, hu]
  have h4 : (((u.emit [.blank 1#1]).setPhase 3#3).setPhase 4#3).setRowAddress =
      (u.emit [.blank 1#1, .addr u.index]).setPhase 4#3 := State.setRowAddress_eq u [.blank 1#1] 4#3 hlt
  have h5 := State.shiftRows_emit u [.blank 1#1, .addr u.index] 5#3
  have e4 : ((u.emit [.blank 1#1, .addr u.index]).setPhase 4#3).setPhase 5#3 =
      (u.emit [.blank 1#1, .addr u.index]).setPhase 5#3 := rfl
  rw [h4, e4, h5]
  unfold State.scanEvents
  rw [State.emit_append u ([PinEvent.blank 1#1, .addr u.index] ++ u.shiftEvents)]
  generalize u.emit ([PinEvent.blank 1#1, .addr u.index] ++ u.shiftEvents) = v
  simp [State.pulseLatch, State.releaseBlank, State.leaveScanStep, State.driveLat, State.driveBlank, State.setPhase,
    State.setLoop, State.emit, Pins.replay, Pins.apply]

/-- The pins after a scan step (60_exceptions.md R144). -/
theorem State.replay_scanEvents (s : State) (p : Pins) (hw : 0 < s.topo.width) (hp : 0 < s.topo.nPasses) :
    p.replay s.scanEvents = s.restPins := by
  unfold State.scanEvents
  rw [Pins.replay_append, Pins.replay_append, State.replay_shiftEvents _ _ hw hp]
  rfl

/-- The same, field by field as a record, for a well-formed topology. -/
theorem State.scanStep_record (s : State) (hT : s.topo.wf = true) :
    s.scanStep = { s.atShift with
      phase := 0#3, pass := 0, col := 0, pins := s.atShift.restPins, trace := s.trace ++ s.atShift.scanEvents } := by
  have f := Topology.wf_facts hT
  rw [State.scanStep_eq s f.rows_pos f.rows_le]
  have hp : 0 < s.atShift.topo.nPasses := by
    rcases f.passes with h | h <;> simp [h]
  have hw : 0 < s.atShift.topo.width := by
    rw [State.atShift_topo]
    exact f.width_pos
  simp [State.emit, State.setLoop, State.setPhase, State.replay_scanEvents _ _ hw hp]

/-- A scan step makes `6 + 3 * N_PASSES * WIDTH` events (40 R78). -/
theorem State.scanEvents_length (s : State) : s.scanEvents.length = 6 + 3 * s.topo.nPasses * s.topo.width := by
  simp only [State.scanEvents, List.length_append, State.shiftEvents_length, List.length_cons, List.length_nil]
  omega

end Sys2Proof.Machine
end

