-- ==== Sys2Proof/Laws/Step.lean ====
section
/-! SUPPORT. Everything an operation and a step can do, said once: later proofs cite these and unfold neither. -/

namespace Sys2Proof.Machine

/-! ### How an operation completes -/

theorem whenWellFormed_wf {s : State} (h : s.topo.wf = true) (r : Host.Outcome State Fault Refusal) : whenWellFormed s r = r := by
  simp [whenWellFormed, h]

theorem whenWellFormed_next {s t : State} {r : Host.Outcome State Fault Refusal} (h : whenWellFormed s r = .next t) :
    s.topo.wf = true ∧ r = .next t := by
  unfold whenWellFormed at h
  split at h
  · next hw => exact ⟨hw, h⟩
  · cases h

theorem completes_wf {s : State} (h : s.topo.wf = true) (f : State → State) : completes f s = .next (f s) :=
  whenWellFormed_wf h _

/-- What an operation that completes does to the state. -/
def effect : Instr → State → State
  | .setpix x y c, s => s.storePixel x y c
  | .swapreq, s => s.requestSwap
  | .drawbuf, s => s.answerDrawBuffer
  | .regper n, s => s.register n
  | .tick, s => s.tickOnce
  | .blank, s => s.assertBlank
  | .advance, s => s.advanceIndex
  | .swapchk, s => s.swapCheck
  | .setaddr, s => s.setRowAddress
  | .shiftrow, s => s.shiftRows
  | .latch, s => s.pulseLatch
  | .unblank, s => s.releaseBlank

/-- When an operation completes: always, but for `SETPIX` out of range (60_exceptions.md R131). -/
def completesOn (T : Topology) : Instr → Prop
  | .setpix x y _ => x < T.width ∧ y < T.height
  | .swapreq => True
  | .drawbuf => True
  | .regper _ => True
  | .tick => True
  | .blank => True
  | .advance => True
  | .swapchk => True
  | .setaddr => True
  | .shiftrow => True
  | .latch => True
  | .unblank => True

/-- An operation answers a next state exactly on a well-formed topology, in range; the state is its effect. -/
theorem exec_next_iff (i : Instr) (s t : State) :
    exec i s = .next t ↔ s.topo.wf = true ∧ completesOn s.topo i ∧ t = effect i s := by
  constructor
  · intro h
    cases i with
    | setpix x y c =>
      obtain ⟨hw, h⟩ := whenWellFormed_next h
      split at h
      · cases h
      · next hr =>
        push Not at hr
        injection h with h
        exact ⟨hw, ⟨hr.1, hr.2⟩, h.symm⟩
    | _ =>
      obtain ⟨hw, h⟩ := whenWellFormed_next h
      injection h with h
      exact ⟨hw, trivial, h.symm⟩
  · rintro ⟨hw, hc, rfl⟩
    cases i with
    | setpix x y c =>
      show whenWellFormed s _ = _
      rw [whenWellFormed_wf hw, if_neg (by simp only [completesOn] at hc; omega)]
      rfl
    | regper n => exact completes_wf hw (fun s => s.register n)
    | _ => exact completes_wf hw _

/-- No operation faults (60_exceptions.md R130). -/
theorem exec_total (i : Instr) (s : State) (hw : s.topo.wf = true) :
    exec i s = .next (effect i s) ∨ (¬completesOn s.topo i ∧ exec i s = .refused .outOfRangePixel) := by
  by_cases hc : completesOn s.topo i
  · exact .inl ((exec_next_iff i s _).2 ⟨hw, hc, rfl⟩)
  · refine .inr ⟨hc, ?_⟩
    cases i with
    | setpix x y c =>
      show whenWellFormed s _ = _
      rw [whenWellFormed_wf hw, if_pos (by simp only [completesOn] at hc; omega)]
    | _ => exact absurd trivial hc

/-! ### A step -/

/-- Everything a step that answers a next state can do. -/
theorem step_cases {s t : State} (h : step s = .next t) : s.topo.wf = true ∧
    ((∃ rest, s.inputs = .reset :: rest ∧ t = s.afterReset rest) ∨
      (s.inputs = [] ∧ s.phase = 0#3 ∧ t = s) ∨
      (s.phase ≠ 0#3 ∧ runWord (.uop s.phase) (s.setPhase (s.phase + 1#3)) = .next t) ∨
      (∃ w rest, s.inputs = .command w :: rest ∧ s.phase = 0#3 ∧ runWord (.cmd w) { s with inputs := rest } = .next t) ∨
      (∃ l rest, s.inputs = .tick l :: rest ∧ s.phase = 0#3 ∧ runWord (.evt l) { s with inputs := rest } = .next t)) := by
  obtain ⟨hw, h⟩ := whenWellFormed_next h
  refine ⟨hw, ?_⟩
  unfold State.fetch at h
  cases hin : s.inputs with
  | nil =>
    simp only [hin] at h
    split at h
    · next hp =>
      injection h with h
      exact .inr (.inl ⟨rfl, hp, h.symm⟩)
    · next hp => exact .inr (.inr (.inl ⟨hp, h⟩))
  | cons m rest =>
    cases m with
    | reset =>
      simp only [hin] at h
      injection h with h
      exact .inl ⟨rest, rfl, h.symm⟩
    | command w =>
      simp only [hin] at h
      split at h
      · next hp => exact .inr (.inr (.inr (.inl ⟨w, rest, rfl, hp, h⟩)))
      · next hp => exact .inr (.inr (.inl ⟨hp, h⟩))
    | tick l =>
      simp only [hin] at h
      split at h
      · next hp => exact .inr (.inr (.inr (.inr ⟨l, rest, rfl, hp, h⟩)))
      · next hp => exact .inr (.inr (.inl ⟨hp, h⟩))

/-- Everything a word does that answers a next state. -/
theorem runWord_next {w : PortWord} {u t : State} (h : runWord w u = .next t) :
    (∃ i, decode w = .operation i ∧ exec i u = .next t) ∨ (∃ why, decode w = .rejected why ∧ t = u) := by
  unfold runWord at h
  cases hd : decode w with
  | operation i =>
    simp only [hd] at h
    exact .inl ⟨i, rfl, h⟩
  | rejected why =>
    simp only [hd] at h
    injection h with h
    exact .inr ⟨why, rfl, h.symm⟩

/-- A command word decodes to a main-loop command or to nothing (60_exceptions.md R139). -/
theorem decodeCmd_context {w : PortBits} {i : Instr} (h : decodeCmd w = .operation i) : i.context = .mainLoop := by
  unfold decodeCmd at h
  repeat' split at h
  all_goals first
    | cases h
  all_goals rfl

/-- The `tick` wire carries `TICK` or nothing (30_encoding.md R56). -/
theorem decodeEvt_operation {l : Bit} {i : Instr} (h : decodeEvt l = .operation i) : i = .tick := by
  unfold decodeEvt at h
  split at h
  · cases h; rfl
  · cases h

end Sys2Proof.Machine
end

