-- ==== Sys2Proof/Tests/Slice0.lean ====
section
/-! SUPPORT. Tests: expected values are written out from the spec (95_test_vectors.md, or the rule named); and a witness for the hypotheses of each statement. -/

namespace Sys2Proof.Tests

open Sys2Proof.Machine

/-! ## Well-formedness: one ill-formed term for each check -/

theorem test_wf_refuses_x : (Instr.setpix 1024 0 0#8).wellFormed = false := by decide
theorem test_wf_refuses_y : (Instr.setpix 0 1024 0#8).wellFormed = false := by decide
theorem test_wf_refuses_n : (Instr.regper 65536).wellFormed = false := by decide
theorem test_wf_accepts_the_last : (Instr.setpix 1023 1023 0xFF#8).wellFormed = true ∧ (Instr.regper 65535).wellFormed = true := by decide

/-- `T_SINGLE` and `T_DUAL` with `y` not inverted. -/
def single : Topology := .tSingle false [] 0
def dual : Topology := .tDual false [] 0

/-- A small well-formed record: two columns, four rows, two chains, chain 1 reversed both ways. -/
def tiny : Topology where
  width := 2
  height := 4
  rowsPerScan := 2
  addrBits := 1
  nChains := 2
  nPasses := 1
  lanes := [[⟨0, false, false⟩, ⟨2, true, true⟩]]
  yInvert := true
  intervalBits := 4
  initPlanes := 7
  colorOfLine := [[.red]]

theorem test_topology_refuses_each_breach :
    ({ single with width := 0 }).wf = false ∧ ({ single with height := 0 }).wf = false ∧
    ({ tiny with rowsPerScan := 0, height := 0 }).wf = false ∧ ({ single with addrBits := 4 }).wf = false ∧
    ({ tiny with nChains := 4, nPasses := 0, height := 0 }).wf = false ∧ ({ single with height := 65 }).wf = false ∧
    ({ single with lanes := [[⟨0, false, false⟩, ⟨33, false, false⟩]] }).wf = false ∧
    ({ single with lanes := [[⟨0, false, false⟩, ⟨31, false, false⟩]] }).wf = false ∧
    ({ single with width := 2 ^ 14 + 1 }).wf = false ∧ ({ single with intervalBits := 0 }).wf = false ∧
    ({ tiny with rowsPerScan := 1, height := 2, addrBits := 0 }).wf = false ∧
    ({ tiny with lanes := [[⟨0, false, false⟩, ⟨2, true, true⟩], []] }).wf = false := by decide

theorem test_tiny_wf : tiny.wf = true := by decide
theorem test_single_wf : single.wf = true := by decide
theorem test_dual_wf : dual.wf = true := by decide

/-- 60_exceptions.md R141: 14 and 13 wires. -/
theorem test_wires : single.wires = 14 ∧ dual.wires = 13 := by decide

/-! ## Decoding: words written out from 30_encoding.md R52 to R57 -/

/-- `0001 | c = 11111101 | y = 0000000010 | x = 0000000011`. -/
theorem test_decode_setpix :
    decode (.cmd 0b0001_11111101_0000000010_0000000011#32) = .operation (.setpix 3 2 0xFD#8) := by decide
theorem test_decode_setpix_origin : decode (.cmd 0x10500000#32) = .operation (.setpix 0 0 5#8) := by decide
theorem test_decode_swapreq : decode (.cmd 0b0010_0000000000000000000000000000#32) = .operation .swapreq := by decide
theorem test_decode_drawbuf : decode (.cmd 0b0011_0000000000000000000000000000#32) = .operation .drawbuf := by decide
theorem test_decode_regper : decode (.cmd 0b0100_000000000000_1000000000000100#32) = .operation (.regper 0x8004) := by decide
theorem test_decode_tick : decode (.evt 1#1) = .operation .tick ∧ decode (.evt 0#1) = .rejected .noEvent := by decide
theorem test_decode_uops :
    [0#3, 1#3, 2#3, 3#3, 4#3, 5#3, 6#3, 7#3].map (fun p => decode (.uop p)) =
      [.rejected .idlePhase, .operation .blank, .operation .advance, .operation .swapchk, .operation .setaddr,
        .operation .shiftrow, .operation .latch, .operation .unblank] := by decide

/-- 95_test_vectors.md L2.1, the reserved row. -/
theorem test_decode_reserved :
    [0x00000000#32, 0x50000000#32, 0xFFFFFFFF#32, 0x20000001#32, 0x30000100#32, 0x40010000#32].map (fun w => decode (.cmd w)) =
      List.replicate 6 (.rejected .reservedCommand) := by decide

/-- 95_test_vectors.md L2.1. -/
theorem test_encode :
    encode (.setpix 10 40 6#8) = .cmd 0x1060A00A#32 ∧ encode (.setpix 5 37 3#8) = .cmd 0x10309405#32 ∧
    encode (.setpix 0 64 5#8) = .cmd 0x10510000#32 ∧ encode (.regper 4) = .cmd 0x40000004#32 := by decide

theorem test_table_words :
    decodeTableWord 32 0x1070FC3F = some (.setpix 63 63 7#8) ∧ decodeTableWord 1 1 = some .tick ∧
    decodeTableWord 3 1 = some .blank ∧ decodeTableWord 8 5 = some .shiftrow ∧ decodeTableWord 32 0 = none := by decide

theorem test_text : (Instr.setpix 10 40 6#8).text = "SETPIX 10, 40, 6" ∧ Instr.text (.regper 4) = "REGPER 4" := by decide

/-! ## One operation each -/

/-- The state after reset of `T_SINGLE`, and one with something in every register. -/
def r0 : State := State.resetFor single
def busy (T : Topology) : State :=
  { State.resetFor T with index := 15, drawSel := 1#1, swapPending := 1#1, interval := 3, tickCnt := 1 }

/-- What a field of the next state is, where there is one. -/
def after {α : Type} (r : Host.Outcome State Fault Refusal) (f : State → α) : Option α := (completed r).map f

/-- 95_test_vectors.md L2.6: `plane[0][2570] <- 6`, inverted `plane[0][1482] <- 6`; mask, not saturation; with `draw_sel = 1` in plane 1. -/
theorem test_setpix :
    after (exec (.setpix 10 40 6#8) r0) (fun t => t.plane0) = some [(2570, 6#8)] ∧
    after (exec (.setpix 10 40 6#8) (State.resetFor (.tSingle true [] 1))) (fun t => t.plane0) = some [(1482, 6#8)] ∧
    after (exec (.setpix 3 2 0xFD#8) (busy dual)) (fun t => (t.plane0, t.plane1)) = some ([], [(131, 5#8)]) ∧
    after (exec (.setpix 0 0 8#8) r0) (fun t => t.memRead 0#1 0) = some 0#8 := by decide

/-- 95_test_vectors.md L2.6: out of range. -/
theorem test_setpix_out_of_range :
    exec (.setpix 0 64 5#8) r0 = .refused .outOfRangePixel ∧ exec (.setpix 64 0 5#8) r0 = .refused .outOfRangePixel ∧
    exec (.setpix 0 32 5#8) (State.resetFor (.tHalfB false [] 0)) = .refused .outOfRangePixel := by
  refine ⟨rfl, rfl, rfl⟩

/-- 95_test_vectors.md L2.7. -/
theorem test_swapreq : after (exec .swapreq r0) (fun t => (t.swapPending, t.drawSel)) = some (1#1, 0#1) := by decide
theorem test_drawbuf :
    after (exec .drawbuf r0) (fun t => t.responses) = some [0x00000000#32] ∧
    after (exec .drawbuf (busy dual)) (fun t => t.responses) = some [0x00000001#32] := by decide

/-- 95_test_vectors.md L2.8. -/
theorem test_regper : after (exec (.regper 4) (busy dual)) (fun t => (t.interval, t.tickCnt, t.index)) = some (4, 0, 15) := by decide
theorem test_tick :
    after (exec .tick (busy dual)) (fun t => (t.tickCnt, t.index, t.trace)) = some (2, 15, []) ∧
    after (exec .tick { busy dual with tickCnt := 2 }) (fun t => (t.tickCnt, t.index, t.drawSel, t.swapPending, t.phase)) =
      some (0, 0, 0#1, 0#1, 0#3) := by decide +kernel

/-- 95_test_vectors.md L2.3: the first scan step after reset on `T_SINGLE`, 198 events; the data values are left out (the planes are unspecified). -/
theorem test_first_scan_step :
    after (exec .tick { r0 with interval := 1 }) (fun t => (t.trace.length, [0, 1, 2, 4, 194, 195, 196, 197].map (fun n => t.trace[n]?))) =
      some (198, [some (.blank 1#1), some (.addr 1), some (.lat 0#1), some (.clk 1#1), some (.clk 0#1), some (.lat 1#1),
        some (.lat 0#1), some (.blank 0#1)]) := by decide +kernel

/-- 40 R71, R74, R75: pin words `0x0008`, `0x0009`, `0x000B`. -/
def lit : State := { r0 with pins := ⟨0#1, 0#1, 0#1, 1, [0#3, 0#3]⟩ }
theorem test_blank : lit.pins.word = 0x0008#16 ∧ after (exec .blank lit) (fun t => t.pins.word) = some 0x0009#16 := by decide
theorem test_latch :
    after (exec .latch { lit with pins := { lit.pins with blank := 1#1 } }) (fun t => (t.pins.word, t.trace)) =
      some (0x0009#16, [.lat 1#1, .lat 0#1]) := by decide
theorem test_unblank :
    after (exec .unblank { lit with pins := { lit.pins with blank := 1#1 } }) (fun t => (t.pins.word, t.trace)) =
      some (0x0008#16, [.blank 0#1]) := by decide

/-- 95_test_vectors.md L2.2. -/
theorem test_advance :
    after (exec .advance (busy dual)) (fun t => t.index) = some 0 ∧
    after (exec .advance (busy single)) (fun t => t.index) = some 16 ∧
    after (exec .advance { busy single with index := 31 }) (fun t => t.index) = some 0 := by decide
theorem test_setaddr :
    after (exec .setaddr { r0 with index := 19 }) (fun t => (t.pins.word, t.trace)) = some (0x0099#16, [.addr 19]) := by decide

/-- 95_test_vectors.md L2.4. -/
theorem test_swapchk :
    after (exec .swapchk { busy dual with index := 0 }) (fun t => (t.drawSel, t.swapPending)) = some (0#1, 0#1) ∧
    after (exec .swapchk (busy dual)) (fun t => (t.drawSel, t.swapPending)) = some (1#1, 1#1) ∧
    after (exec .swapchk { busy dual with index := 0, swapPending := 0#1 }) (fun t => (t.drawSel, t.swapPending)) =
      some (1#1, 0#1) := by decide

/-- 95_test_vectors.md L2.5, single pixel: address 5, pulse 122, pair `(3, 0)`; the bytes of the two lanes of that pulse are written out. -/
theorem test_shiftrow_pixel :
    ({ State.resetFor dual with index := 5, plane1 := [(2373, 0xFB#8), (3397, 0xF8#8)] } : State).presented 1 58 = [3#3, 0#3] := by
  decide

/-- Rows 0 and, reversed, 3 - 0: chain 0 forward, chain 1 backward (41 R86, R87); the upper bits of a byte are dropped (41 R85). -/
theorem test_shiftrow_trace :
    after (exec .shiftrow { State.resetFor tiny with
      plane1 := [(0, 1#8), (1, 2#8), (2, 3#8), (3, 4#8), (4, 5#8), (5, 6#8), (6, 0xFF#8), (7, 0#8)] }) (fun t => t.trace) =
      some [.lat 0#1, .data [1#3, 0#3], .clk 1#1, .clk 0#1, .data [2#3, 7#3], .clk 1#1, .clk 0#1] := by decide

/-! ## Steps -/

/-- 10_state.md R23 with 30_encoding.md R58: the reset pin word is `0x0001`. -/
theorem test_reset_pins : State.reset.pins.word = 0x0001#16 := by decide

/-- Every row of the table runs as the first operation after reset. -/
theorem test_first_operation :
    [(32, 0x10500000), (32, 0x20000000), (32, 0x30000000), (32, 0x40000001), (1, 1), (3, 1), (3, 2), (3, 3), (3, 4), (3, 5),
      (3, 6), (3, 7)].all (fun r => (completed (step (State.reset.withFetchWord r.1 r.2))).isSome) = true := by decide

theorem test_step_runs_setpix :
    after (step (State.reset.withFetchWord 32 0x1060A00A)) (fun t => (t.plane0, t.inputs)) = some ([(2570, 6#8)], []) := by decide
theorem test_step_runs_micro :
    after (step (State.reset.withFetchWord 3 2)) (fun t => (t.index, t.phase)) = some (1, 3#3) := by decide

/-- 95_test_vectors.md L2.1: a reserved word changes nothing. -/
theorem test_step_reserved : step { r0 with inputs := [.command 0x20000001#32] } = .next r0 := rfl

/-- 30_encoding.md R63: `FILL` is `WIDTH * HEIGHT` commands; one at coordinate 1024 has no word (log 22). -/
theorem test_fill_length : (fill tiny 5#8).length = 8 ∧ listing [.setpix 1024 0 5#8] = [] ∧ listing (ticks 2 ++ disable) = [.tick 1#1, .tick 1#1, .command 0x40000000#32] := by
  decide

/-- 41 R93: the value of pulse 0 stands in the top cell. -/
theorem test_sink :
    (Sink.run ⟨Pins.reset tiny, [[0#3, 0#3], [0#3, 0#3]], [], none⟩
      ([.blank 1#1, .addr 1] ++ pulseEvents [1#3, 2#3] ++ pulseEvents [3#3, 4#3] ++ [.lat 1#1, .lat 0#1, .blank 0#1])).lit =
      some (1, [[3#3, 1#3], [4#3, 2#3]]) := by decide

/-! ## Witnesses: for each statement with hypotheses, a state and operands that meet them all -/

/-- An outcome that is a next state is that of its state. -/
theorem next_of_completed {r : Host.Outcome State Fault Refusal} (h : (completed r).isSome = true) :
    r = .next ((completed r).get h) := by
  cases r with
  | next t => rfl
  | fault f => cases f
  | refused f => cases h

/-- The small block after reset, with a swap asked for, a scan step on every tick, and moves to come. -/
def w (is : List Input) : State := { State.resetFor tiny with swapPending := 1#1, interval := 1, inputs := is }

theorem witness_inv (is : List Input) : (w is).Inv where
  topo_wf := test_tiny_wf
  index_lt := by show 0 < 2; decide
  interval_lt := by show 1 < 2 ^ 4; decide
  count_lt := fun _ => by show 0 < 1; decide
  count_idle := fun h => by cases h
  plane0_wf := List.Pairwise.nil
  plane1_wf := List.Pairwise.nil
  plane0_fits := rfl
  plane1_fits := rfl
  data_length := rfl
  loop_idle := ⟨rfl, rfl⟩
  lat_low := rfl
  clk_low := rfl
  addr_index := fun _ _ => rfl
  blank_inside := fun h => absurd rfl h
  blank_outside := fun _ => .inr rfl
  pins_replay := rfl
  protocol := rfl

theorem witness_DecodeOfEncodeIsIdentity : (Instr.setpix 1023 0 0xFF#8).wellFormed = true := by decide
theorem witness_EncodeOfDecodeIsIdentity : decode (.cmd 0x4000FFFF#32) = .operation (.regper 65535) := by decide
theorem witness_SetpixWordLayout :
    (1023 < 2 ^ 10 ∧ 0 < 2 ^ 10) ∧ 0x1FFFFFFF#32 &&& 0xF0000000#32 = 0x10000000#32 := by decide
theorem witness_OtherCommandWordLayouts :
    65535 < 2 ^ 16 ∧ 0x4000FFFF#32 &&& 0xFFFF0000#32 = 0x40000000#32 ∧ 0x20000000#32 &&& 0xFFFFFFFF#32 = 0x20000000#32 ∧
    0x30000000#32 &&& 0xFFFFFFFF#32 = 0x30000000#32 ∧ (w []).topo.wf = true ∧ Instr.swapreq ≠ .drawbuf ∧
    (completed (exec .swapreq (w []))).isSome = true := by decide
theorem witness_ReservedCommandsAreIgnored :
    decode (.cmd 0x40010000#32) = .rejected .reservedCommand ∧ (w [.command 0x40010000#32]).topo.wf = true ∧
    (w [.command 0x40010000#32]).phase = 0#3 ∧ (w [.command 0x40010000#32]).inputs = .command 0x40010000#32 :: [] ∧
    (0x1FFFFFFF#32 : PortBits).toNat / 2 ^ 28 = 1 := by decide
theorem witness_CommandRowsDecideTheDecoder :
    (∃ r ∈ cmdRows, r.fits 0x4000FFFF#32 = true) ∧ decode (.cmd 0x4000FFFF#32) = .operation (.regper 65535) := by decide
theorem witness_PinWordPacking : 31 < 32 := by decide
theorem witness_RstRestoresTheResetState :
    ({ w [.reset, .tick 1#1] with phase := 5#3 }).topo.wf = true ∧
    ({ w [.reset, .tick 1#1] with phase := 5#3 }).inputs = .reset :: [.tick 1#1] := by decide
theorem witness_StepRunsTheDecodedOperation_command :
    (w [.command 0x20000000#32]).phase = 0#3 ∧ (w [.command 0x20000000#32]).inputs = .command 0x20000000#32 :: [] ∧
    decode (.cmd 0x20000000#32) = .operation .swapreq := by decide
theorem witness_StepRunsTheDecodedOperation_tick :
    (w [.tick 1#1]).phase = 0#3 ∧ (w [.tick 1#1]).inputs = .tick 1#1 :: [] := by decide
theorem witness_StepRunsTheDecodedOperation_micro :
    ({ w [] with phase := 7#3 }).phase ≠ 0#3 ∧ (∀ l, ({ w [] with phase := 7#3 }).inputs ≠ .reset :: l) ∧
    decode (.uop 7#3) = .operation .unblank := ⟨by decide, (fun _ h => by cases h), by decide⟩
theorem witness_StepWithoutAnOperation :
    (w []).topo.wf = true ∧ (w []).phase = 0#3 ∧ (w []).inputs = [] ∧ (w [.tick 0#1]).inputs = .tick 0#1 :: [] := by decide
theorem witness_IllFormedTopologyIsRefused : (State.resetFor { tiny with width := 0 }).topo.wf = false := by decide
theorem witness_EveryOtherOperationCompletes_completes :
    (w []).topo.wf = true ∧ ∀ x y c, Instr.setpix 1 3 7#8 = .setpix x y c → x < (w []).topo.width ∧ y < (w []).topo.height :=
  ⟨by decide, fun _ _ _ h => by cases h; decide⟩
theorem witness_EveryOtherOperationCompletes_refuses :
    (w []).topo.wf = true ∧ ∃ x y c, Instr.setpix 1 4 7#8 = .setpix x y c ∧ ((w []).topo.width ≤ x ∨ (w []).topo.height ≤ y) :=
  ⟨by decide, 1, 4, 7#8, rfl, by decide⟩
theorem witness_SetpixStoresOneColour :
    (w []).topo.wf = true ∧ 1 < (w []).topo.width ∧ 3 < (w []).topo.height ∧ ¬((1#1 : Bit) = (w []).drawSel ∧ (0 : Nat) = 1) := by decide
theorem witness_SetpixStoresOneColour_x : (w []).topo.wf = true ∧ ((w []).topo.width ≤ 2 ∨ (w []).topo.height ≤ 0) := by decide
theorem witness_SetpixStoresOneColour_y : (w []).topo.wf = true ∧ ((w []).topo.width ≤ 0 ∨ (w []).topo.height ≤ 4) := by decide
theorem witness_OnlySetpixWritesAPlane :
    (∃ t, exec .tick (w []) = .next t) ∧ (∀ x y c, Instr.tick ≠ .setpix x y c) ∧
    (∃ t, exec (.setpix 1 3 7#8) (w []) = .next t) ∧ (Instr.setpix 1 3 7#8).context = .mainLoop :=
  ⟨⟨_, next_of_completed (by decide)⟩, (fun _ _ _ h => by cases h), ⟨_, next_of_completed (by decide)⟩, rfl⟩
theorem witness_OnlySetpixWritesAPlane_reads :
    Instr.shiftrow ≠ .tick ∧
    ({ w [] with plane0 := [(0, 5#8)] } : State) = { w [] with plane0 := [(0, 5#8)], plane1 := (w []).plane1 } ∧
    samePlane (w []) { w [] with plane0 := [(0, 5#8)] } ((w []).drawSel ^^^ 1#1) ∧ ∃ t, exec .shiftrow (w []) = .next t :=
  ⟨by decide, rfl, fun _ => rfl, _, next_of_completed (by decide)⟩
theorem witness_SwapreqSetsTheFlag :
    (w []).topo.wf = true ∧ (w []).swapPending = 1#1 ∧ ({ w [] with interval := 0 }).interval = 0 := by decide
theorem witness_DrawbufAnswersTheDrawPlane :
    (w []).topo.wf = true ∧ ({ w [] with index := 1 }).drawSel = (w []).drawSel ∧
    ({ w [] with drawSel := 1#1 }).drawSel = (w []).drawSel ^^^ 1#1 ∧ ({ w [] with drawSel := 1#1 }).topo.wf = true := by decide
theorem witness_SwapchkTruthTable :
    (w []).topo.wf = true ∧ ((w []).index = 0 ∧ (w []).swapPending = 1#1) ∧
    (({ w [] with swapPending := 0#1 }).index = 0 ∧ ({ w [] with swapPending := 0#1 }).swapPending = 0#1) ∧
    ({ w [] with index := 1 }).index ≠ 0 := by decide
theorem witness_RolesChangeOnlyAtTheBoundary :
    ∃ t, step { w [.tick 1#1] with index := 1 } = .next t ∧ t.drawSel ≠ ({ w [.tick 1#1] with index := 1 } : State).drawSel :=
  ⟨_, next_of_completed (by decide), by decide⟩
theorem witness_RequestsCoalesce : (w []).topo.wf = true ∧ (w []).phase = 0#3 := by decide
theorem witness_BlankAssertsOutputDisable : (w []).topo.wf = true := by decide
theorem witness_AdvanceIsPeriodic :
    (w []).topo.wf = true ∧ (w []).index < (w []).topo.rowsPerScan ∧
    ({ w [] with index := 1 }).index = ({ w [] with index := 1 }).topo.rowsPerScan - 1 ∧ 1 < (w []).topo.rowsPerScan := by decide
theorem witness_SetaddrDrivesTheIndex : (w []).topo.wf = true ∧ (w []).index < (w []).topo.rowsPerScan := by decide
theorem witness_LatchPulses : (w []).topo.wf = true ∧ (w []).interval ≠ 0 ∧ (w []).interval ≤ (w []).tickCnt + 1 := by decide
theorem witness_UnblankReleasesOutputDisable :
    (w []).topo.wf = true ∧ ((w []).interval ≠ 0 ∧ (w []).interval ≤ (w []).tickCnt + 1) ∧
    (Instr.swapreq.context = .mainLoop ∧ ∃ t, exec .swapreq (w []) = .next t) ∧
    (({ w [] with interval := 2 }).tickCnt + 1 < ({ w [] with interval := 2 }).interval ∧
      ∃ t, exec .tick { w [] with interval := 2 } = .next t) :=
  ⟨by decide, by decide, ⟨rfl, _, next_of_completed (by decide)⟩, by decide, _, next_of_completed (by decide)⟩
theorem witness_ShiftrowPresentsTheRows :
    ∃ d : Nat → Nat → List Colour, (w []).topo.wf = true ∧ ∀ p k, d p k = (List.range (w []).topo.nChains).map (fun c =>
      ((w []).memRead ((w []).drawSel ^^^ 1#1)
        ((if ((w []).topo.lane p c).rowRev then
            ((w []).topo.lane p c).rowBase + ((w []).topo.rowsPerScan - 1 - (w []).index)
          else ((w []).topo.lane p c).rowBase + (w []).index) * (w []).topo.width +
          (if ((w []).topo.lane p c).colRev then (w []).topo.width - 1 - k else k))).extractLsb' 0 3) :=
  ⟨_, by decide, fun _ _ => rfl⟩
theorem witness_ShiftrowReadsInRange :
    tiny.wf = true ∧ 0 < tiny.nPasses ∧ 1 < tiny.nChains ∧ 1 < tiny.width ∧ 1 < tiny.rowsPerScan := by decide
theorem witness_EveryPixelOncePerCycle : tiny.wf = true ∧ 3 < tiny.height ∧ 1 < tiny.width := by decide
theorem witness_PlaceOfAPixel :
    tiny.wf = true ∧ 0 < tiny.nPasses ∧ 1 < tiny.nChains ∧ 1 < tiny.width ∧ (tiny.lane 0 1).rowBase ≤ 3 ∧
    3 < (tiny.lane 0 1).rowBase + tiny.rowsPerScan := by decide

/-- The small block with a display plane of one colour, with various upper bits. -/
def solid : State :=
  { w [] with plane1 := [(0, 5#8), (1, 0xFD#8), (2, 5#8), (3, 13#8), (4, 5#8), (5, 5#8), (6, 5#8), (7, 5#8)] }

theorem witness_SolidFillIsShifted :
    solid.topo.wf = true ∧ solid.index < solid.topo.rowsPerScan ∧
    ∀ off < solid.topo.width * solid.topo.height, (solid.memRead (solid.drawSel ^^^ 1#1) off).toNat % 8 = (5#3 : Colour).toNat := by
  decide
theorem witness_RegperReplacesTheInterval :
    (w []).topo.wf = true ∧ 15 < 2 ^ (w []).topo.intervalBits ∧ 0 < 2 ^ (w []).topo.intervalBits ∧ 14 < 15 ∧ 1 ≤ 15 := by decide
theorem witness_RegperBeyondTheRegister : (w []).topo.wf = true := by decide
theorem witness_TickCountsAndFires :
    (w []).topo.wf = true ∧ (w []).tickCnt < (w []).interval ∧ ({ w [] with interval := 0 }).interval = 0 ∧
    (({ w [] with interval := 2 }).interval ≠ 0 ∧ ({ w [] with interval := 2 }).tickCnt + 1 < ({ w [] with interval := 2 }).interval) ∧
    ((w []).interval ≠ 0 ∧ (w []).interval ≤ (w []).tickCnt + 1) := by decide
theorem witness_FiringTickShowsOneRowGroup :
    (w []).topo.wf = true ∧ (w []).interval ≠ 0 ∧ (w []).interval ≤ (w []).tickCnt + 1 := by decide
theorem witness_ScanStepCounts :
    (w []).topo.wf = true ∧ (w []).interval ≠ 0 ∧ (w []).interval ≤ (w []).tickCnt + 1 ∧ ∃ t, exec .tick (w []) = .next t :=
  ⟨by decide, by decide, by decide, _, next_of_completed (by decide)⟩
theorem witness_ScanRecordIsInTheTrace :
    (w []).topo.wf = true ∧ (w []).pins.clk = 0#1 ∧ (w []).interval ≠ 0 ∧ (w []).interval ≤ (w []).tickCnt + 1 ∧
    0 < (w []).topo.nPasses ∧ 1 < (w []).topo.width ∧ 1 < (w []).topo.nChains := by decide

/-- A sink of the small block's shape. -/
def sink : Sink := ⟨(w []).pins, [[0#3, 0#3], [0#3, 0#3]], [], none⟩

theorem witness_SinkHoldsThePulses :
    (w []).topo.wf = true ∧ sink.fits (w []).topo = true ∧ (w []).interval ≠ 0 ∧ (w []).interval ≤ (w []).tickCnt + 1 ∧ 0 < (w []).topo.nPasses ∧ 1 < (w []).topo.nChains ∧
    1 < (w []).topo.width := by decide
theorem witness_AtomicScanStepIsSevenSteps :
    (w []).topo.wf = true ∧ (w []).interval ≠ 0 ∧ (w []).interval ≤ (w []).tickCnt + 1 ∧ ∀ l, (w []).inputs ≠ .reset :: l :=
  ⟨by decide, by decide, by decide, (fun _ h => by cases h)⟩
theorem witness_NoMoveInsideAScanStep :
    ({ w [.tick 1#1] with phase := 7#3 }).phase ≠ 0#3 ∧ (∀ l, ({ w [.tick 1#1] with phase := 7#3 }).inputs ≠ .reset :: l) ∧
    ∃ t, step { w [.tick 1#1] with phase := 7#3 } = .next t :=
  ⟨by decide, (fun _ h => by cases h), _, next_of_completed (by decide)⟩
theorem witness_MainLoopTouchesOnlyItsOwn : Instr.swapreq.context = .mainLoop ∧ ∃ t, exec .swapreq (w []) = .next t :=
  ⟨rfl, _, next_of_completed (by decide)⟩
theorem witness_InterruptTouchesOnlyItsOwn : Instr.tick.context = .interrupt ∧ ∃ t, exec .tick (w []) = .next t :=
  ⟨rfl, _, next_of_completed (by decide)⟩

/-- Two states that differ in the draw plane alone. -/
theorem witness_DrawPlaneDoesNotShow :
    ({ w [] with plane0 := [(0, 5#8)] } : State) = { w [] with plane0 := [(0, 5#8)], plane1 := (w []).plane1 } ∧
    samePlane (w []) { w [] with plane0 := [(0, 5#8)] } ((w []).drawSel ^^^ 1#1) ∧
    ¬(((w []).index + 1) % (w []).topo.rowsPerScan = 0 ∧ (w []).swapPending = 1#1) ∧
    (∃ t, exec .tick (w []) = .next t) ∧ ∃ t', exec .tick { w [] with plane0 := [(0, 5#8)] } = .next t' :=
  ⟨rfl, fun _ => rfl, by decide, ⟨_, next_of_completed (by decide)⟩, _, next_of_completed (by decide)⟩
theorem witness_InvariantHoldsAtReset : tiny.wf = true := by decide
theorem witness_EveryStepKeepsTheInvariant : (w [.tick 1#1]).Inv ∧ ∃ t, step (w [.tick 1#1]) = .next t :=
  ⟨witness_inv _, _, next_of_completed (by decide)⟩
theorem witness_TopologyIsFixed : ∃ t, step (w [.tick 1#1]) = .next t := ⟨_, next_of_completed (by decide)⟩
theorem witness_IndexCountsScanSteps :
    tiny.wf = true ∧ (∃ t, step (w [.tick 1#1]) = .next t) ∧
    (w [.tick 1#1]).index = (scanStepsIn (w [.tick 1#1]).trace +
      (if (w [.tick 1#1]).phase = 3#3 ∨ (w [.tick 1#1]).phase = 4#3 then 1 else 0)) % (w [.tick 1#1]).topo.rowsPerScan :=
  ⟨by decide, ⟨_, next_of_completed (by decide)⟩, by decide⟩

/-- One tick, then a `SETPIX`: the index goes from 0 to 1 and does not wrap. -/
def cycle : State := w [.tick 1#1, .command 0x10500000#32]

theorem witness_NoTearWithinACycle :
    cycle.Inv ∧ cycle.phase = 0#3 ∧ noReset cycle.inputs = true ∧ ∃ t, runSteps 2 cycle = .next t ∧
      cycle.index + (scanStepsIn t.trace - scanStepsIn cycle.trace) < cycle.topo.rowsPerScan :=
  ⟨witness_inv _, by decide, by decide, _, next_of_completed (by decide), by decide⟩

/-- Two ticks reach the boundary; then a tick and a `SETPIX`. -/
def frame : State := w [.tick 1#1, .tick 1#1, .tick 1#1, .command 0x10500000#32]
theorem frame_runs : (completed (runSteps 2 frame)).isSome = true := by decide
/-- The block just past the boundary. -/
def boundary : State := (completed (runSteps 2 frame)).get frame_runs
theorem boundary_runs : ∀ j ≤ 1, ((completed (runSteps j boundary)).map (fun u => u.drawSel)) = some boundary.drawSel := by decide

theorem witness_RequestedFrameIsDisplayed :
    frame.Inv ∧ frame.phase = 0#3 ∧ frame.swapPending = 1#1 ∧ noReset frame.inputs = true ∧
    runSteps 2 frame = .next boundary ∧ frame.inputs = [.tick 1#1, .tick 1#1] ++ boundary.inputs ∧
    noDrawing [.tick 1#1, .tick 1#1] = true ∧ boundary.drawSel = frame.drawSel ^^^ 1#1 ∧
    (∃ t, runSteps 1 boundary = .next t) ∧
    ∀ j ≤ 1, ∀ u, runSteps j boundary = .next u → u.drawSel = boundary.drawSel := by
  refine ⟨witness_inv _, by decide, by decide, by decide, next_of_completed frame_runs, by decide, by decide, by decide,
    ⟨_, next_of_completed (by decide)⟩, ?_⟩
  intro j hj u hu
  have h := boundary_runs j hj
  rw [hu] at h
  exact Option.some.inj h
theorem witness_NoRequestNoSwap :
    ({ cycle with swapPending := 0#1 }).swapPending = 0#1 ∧ noReset ({ cycle with swapPending := 0#1 } : State).inputs = true ∧
    (∀ v, .command v ∈ ({ cycle with swapPending := 0#1 } : State).inputs → v ≠ 0x20000000#32) ∧
    ∃ t, runSteps 2 { cycle with swapPending := 0#1 } = .next t := by
  refine ⟨rfl, by decide, ?_, _, next_of_completed (by decide)⟩
  intro v hv h
  subst h
  revert hv
  decide
theorem witness_SwapLatency :
    (w (List.replicate 2 (.tick 1#1))).Inv ∧ (w (List.replicate 2 (.tick 1#1))).phase = 0#3 ∧
    (w (List.replicate 2 (.tick 1#1))).swapPending = 1#1 ∧ (w (List.replicate 2 (.tick 1#1))).interval = 1 ∧
    (w (List.replicate 2 (.tick 1#1))).inputs = List.replicate (w (List.replicate 2 (.tick 1#1))).topo.rowsPerScan (.tick 1#1) ∧
    2 ≤ (w (List.replicate 2 (.tick 1#1))).topo.rowsPerScan :=
  ⟨witness_inv _, by decide, by decide, by decide, by decide, by decide⟩
theorem witness_SwapLatency_boundary :
    (w []).topo.rowsPerScan - (w []).index ≤ 2 ∧ 1 < (w []).topo.rowsPerScan - (w []).index := by decide
theorem witness_DividerFiresEveryNthTick :
    (w (List.replicate (3 * 2 + 2) (.tick 1#1))).topo.wf = true ∧ (w (List.replicate (3 * 2 + 2) (.tick 1#1))).phase = 0#3 ∧
    (w (List.replicate (3 * 2 + 2) (.tick 1#1))).index < (w (List.replicate (3 * 2 + 2) (.tick 1#1))).topo.rowsPerScan ∧
    1 ≤ 3 ∧ 3 < 2 ^ (w (List.replicate (3 * 2 + 2) (.tick 1#1))).topo.intervalBits ∧ 2 < 3 ∧
    (w (List.replicate (3 * 2 + 2) (.tick 1#1))).inputs = List.replicate (3 * 2 + 2) (.tick 1#1) := by decide
/-- The small block with the scan disabled, three ticks to come, then `rst`. -/
def disabled : State := { w (List.replicate 3 (.tick 1#1) ++ [.reset]) with interval := 0 }

theorem witness_DisabledScanIsFrozen :
    disabled.topo.wf = true ∧ disabled.phase = 0#3 ∧ disabled.interval = 0 ∧
    disabled.inputs = List.replicate 3 (.tick 1#1) ++ [.reset] := by decide
theorem witness_FillWritesTheWholeDrawPlane :
    (w (listing (fill tiny 0xFD#8))).Inv ∧ (w (listing (fill tiny 0xFD#8))).phase = 0#3 ∧
    (w (listing (fill tiny 0xFD#8))).topo.width ≤ 2 ^ 10 ∧ (w (listing (fill tiny 0xFD#8))).topo.height ≤ 2 ^ 10 ∧
    (w (listing (fill tiny 0xFD#8))).inputs = listing (fill (w (listing (fill tiny 0xFD#8))).topo 0xFD#8) :=
  ⟨witness_inv _, rfl, by decide, by decide, rfl⟩

end Sys2Proof.Tests
end

section
/-! PROOFS. The index counts the scan steps (10_state.md R12): what each operation does to the index and to the row-address events, and the
invariant that the step keeps. -/

namespace Sys2Proof.Machine

/-! ### Row-address events of a trace -/

@[simp] theorem scanStepsIn_nil : scanStepsIn [] = 0 := rfl

@[simp] theorem scanStepsIn_append (es fs : List PinEvent) : scanStepsIn (es ++ fs) = scanStepsIn es + scanStepsIn fs :=
  List.countP_append

@[simp] theorem scanStepsIn_cons (e : PinEvent) (es : List PinEvent) :
    scanStepsIn (e :: es) = scanStepsIn es + (if e.isAddr = true then 1 else 0) :=
  List.countP_cons

theorem isAddr_of_mem_pulseEvents {d : List Colour} {e : PinEvent} (h : e ∈ pulseEvents d) : e.isAddr = false := by
  simp only [pulseEvents, List.mem_cons, List.not_mem_nil, or_false] at h
  rcases h with rfl | rfl | rfl <;> rfl

/-- `SHIFTROW` drives no row address (41 R85). -/
@[simp] theorem State.scanStepsIn_shiftEvents (s : State) : scanStepsIn s.shiftEvents = 0 := by
  refine List.countP_eq_zero.2 fun e he => ?_
  rcases List.mem_cons.1 he with rfl | he
  · exact Bool.false_ne_true
  · obtain ⟨p, -, he⟩ := List.mem_flatMap.1 he
    obtain ⟨k, -, he⟩ := List.mem_flatMap.1 he
    exact ne_true_of_eq_false (isAddr_of_mem_pulseEvents he)

/-- A scan step drives the row address once (40 R78). -/
@[simp] theorem State.scanStepsIn_scanEvents (s : State) : scanStepsIn s.scanEvents = 1 := by
  simp [State.scanEvents, PinEvent.isAddr]

/-! ### The invariant -/

/-- How far `index` is ahead of the row-address events at a phase: one between `ADVANCE` and `SETADDR`. -/
def aheadAt (p : BitVec 3) : Nat := if p = 3#3 ∨ p = 4#3 then 1 else 0

/-- The closed form of 10_state.md R12. -/
def State.IndexCounts (s : State) : Prop := s.index = (scanStepsIn s.trace + aheadAt s.phase) % s.topo.rowsPerScan

/-- Nothing that `State.IndexCounts` reads has changed, but perhaps the phase. -/
structure State.SameCount (s t : State) : Prop where
  topo : t.topo = s.topo
  index : t.index = s.index
  steps : scanStepsIn t.trace = scanStepsIn s.trace

theorem State.IndexCounts.of_sameCount {s t : State} (h : s.IndexCounts) (k : s.SameCount t)
    (hp : aheadAt t.phase = aheadAt s.phase) : t.IndexCounts := by
  unfold State.IndexCounts
  rw [k.index, k.steps, k.topo, hp]
  exact h

theorem State.indexCounts_afterReset (s : State) (rest : List Input) : (s.afterReset rest).IndexCounts :=
  (Nat.zero_mod _).symm

/-! ### What each operation does to the count -/

/-- The operations that may advance the index or drive the row address. -/
def movesCount (i : Instr) : Bool := i == .advance || i == .setaddr || i == .tick

theorem effect_phase {i : Instr} (hi : i ≠ .tick) (s : State) : (effect i s).phase = s.phase := by
  cases i with
  | tick => exact absurd rfl hi
  | setpix x y c => exact State.memWrite_phase ..
  | swapchk => exact State.swapCheck_phase s
  | shiftrow =>
    rw [effect, State.shiftRows_eq]
    rfl
  | _ => rfl

theorem effect_sameCount {i : Instr} (hi : movesCount i = false) (s : State) : s.SameCount (effect i s) := by
  cases i with
  | advance | setaddr | tick => cases hi
  | setpix x y c => exact ⟨State.memWrite_topo .., State.memWrite_index .., congrArg scanStepsIn (State.memWrite_trace ..)⟩
  | swapchk => exact ⟨s.swapCheck_topo, s.swapCheck_index, congrArg scanStepsIn s.swapCheck_trace⟩
  | shiftrow =>
    rw [effect, State.shiftRows_eq]
    exact ⟨rfl, rfl, by simp [State.emit]⟩
  | swapreq | drawbuf | regper n => exact ⟨rfl, rfl, rfl⟩
  | blank | latch | unblank =>
    exact ⟨rfl, rfl, by simp [effect, State.assertBlank, State.pulseLatch, State.releaseBlank, PinEvent.isAddr]⟩

/-- A scan step run whole advances the index once and drives the row address once (40 R72, R73). -/
theorem State.indexCounts_scanStep {s : State} (hw : s.topo.wf = true) (hp : s.phase = 0#3) (h : s.IndexCounts) :
    s.scanStep.IndexCounts := by
  rw [State.scanStep_record s hw]
  simp only [State.IndexCounts, hp, aheadAt] at h
  simp [State.IndexCounts, aheadAt, h]

theorem State.indexCounts_tickOnce {s : State} (hw : s.topo.wf = true) (hp : s.phase = 0#3) (h : s.IndexCounts) :
    s.tickOnce.IndexCounts := by
  unfold State.tickOnce
  split
  · exact h
  · split
    · exact State.indexCounts_scanStep (s := s.setTickCnt 0) hw hp h
    · exact h

/-! ### The micro-operations one by one -/

/-- At a phase the sequencer runs `ADVANCE`, or `SETADDR`, or a micro-operation that neither moves the count nor is followed by a phase
that is further ahead (30_encoding.md R57). -/
theorem decodeUop_cases {p : BitVec 3} {i : Instr} (h : decodeUop p = .operation i) :
    (p = 2#3 ∧ i = .advance) ∨ (p = 4#3 ∧ i = .setaddr) ∨ (aheadAt (p + 1#3) = aheadAt p ∧ movesCount i = false) := by
  unfold decodeUop at h
  split at h <;> cases h
  all_goals revert p; decide

theorem decodeUop_ne_rejected {p : BitVec 3} (hp : p ≠ 0#3) (why : Rejected) : decodeUop p ≠ .rejected why := by
  cases why <;> revert p <;> decide

theorem State.indexCounts_micro {s : State} {i : Instr} (hd : decodeUop s.phase = .operation i) (h : s.IndexCounts) :
    (effect i (s.setPhase (s.phase + 1#3))).IndexCounts := by
  rcases decodeUop_cases hd with ⟨hp, rfl⟩ | ⟨hp, rfl⟩ | ⟨hp, hi⟩
  · simp only [State.IndexCounts, hp, aheadAt] at h
    simp [State.IndexCounts, effect, State.advanceIndex, aheadAt, hp, h]
  · simp only [State.IndexCounts, hp, aheadAt] at h
    simp [State.IndexCounts, effect, State.setRowAddress, aheadAt, hp, h, PinEvent.isAddr]
  · have hne : i ≠ .tick := by rintro rfl; cases hi
    have hk := effect_sameCount hi (s.setPhase (s.phase + 1#3))
    refine h.of_sameCount ⟨hk.topo, hk.index, hk.steps⟩ ?_
    rw [effect_phase hne]
    exact hp

/-! ### The step -/

theorem State.indexCounts_mainLoop {s : State} {i : Instr} (hi : i.context = .mainLoop) (h : s.IndexCounts) :
    (effect i s).IndexCounts := by
  have hm : movesCount i = false := by
    cases i with
    | setpix | swapreq | drawbuf | regper => rfl
    | _ => cases hi
  have hne : i ≠ .tick := by rintro rfl; cases hi
  exact h.of_sameCount (effect_sameCount hm s) (congrArg aheadAt (effect_phase hne s))

/-- Every step keeps the closed form of 10_state.md R12. -/
theorem step_indexCounts {s t : State} (hst : step s = .next t) (h : s.IndexCounts) : t.IndexCounts := by
  obtain ⟨hw, ⟨rest, -, rfl⟩ | ⟨-, -, rfl⟩ | ⟨hp, hrun⟩ | ⟨w, rest, -, -, hrun⟩ | ⟨l, rest, -, hp, hrun⟩⟩ := step_cases hst
  · exact s.indexCounts_afterReset rest
  · exact h
  · rcases runWord_next hrun with ⟨i, hd, he⟩ | ⟨why, hd, -⟩
    · obtain ⟨-, -, rfl⟩ := (exec_next_iff ..).1 he
      exact State.indexCounts_micro hd h
    · exact absurd hd (decodeUop_ne_rejected hp why)
  · rcases runWord_next hrun with ⟨i, hd, he⟩ | ⟨why, -, rfl⟩
    · obtain ⟨-, -, rfl⟩ := (exec_next_iff ..).1 he
      exact State.indexCounts_mainLoop (decodeCmd_context hd) h
    · exact h
  · rcases runWord_next hrun with ⟨i, hd, he⟩ | ⟨why, -, rfl⟩
    · obtain rfl := decodeEvt_operation hd
      obtain ⟨-, -, rfl⟩ := (exec_next_iff ..).1 he
      exact State.indexCounts_tickOnce (s := { s with inputs := rest }) hw hp h
    · exact h

/-- Settles O48: the closed form holds at reset, where nothing has been counted, and `step_indexCounts` keeps it. -/
theorem indexCountsScanSteps : Obligations.IndexCountsScanSteps :=
  ⟨fun _ _ => (Nat.zero_mod _).symm, fun _ _ => step_indexCounts⟩

end Sys2Proof.Machine
end

section
/-! PROOF. The addresses `SHIFTROW` reads (20_memory.md R35). -/

namespace Sys2Proof.Machine

/-- Settles O29: the lane's rows lie in the buffer by 00_scope.md R7, its columns by 41 R87, and a row and a column of the buffer have
their offset in the plane. -/
theorem shiftrowReadsInRange : Obligations.ShiftrowReadsInRange := by
  intro T p c k i hT hp hc hk hi
  have hrow : T.laneRow p c i < T.height := Topology.laneRow_lt (Topology.wf_facts hT) hp hc hi
  have hcol : T.laneColumn p c k < T.width := Topology.laneColumn_lt hk
  exact ⟨hrow, hcol, Topology.pixelOffset_lt hrow hcol⟩

end Sys2Proof.Machine
end

section
/-! PROOFS. The command words (30_encoding.md R51 to R61): the fields of a word, the word of its fields, the match and the mask of each row, and
everything the command decoder can answer. -/

namespace Sys2Proof

/-! ### The fields of a command word, as numbers -/

theorem cmdOp_toNat (w : PortBits) : (cmdOp w).toNat = w.toNat / 2 ^ 28 := by
  have hw := w.isLt
  rw [cmdOp, BitVec.extractLsb'_toNat, Nat.shiftRight_eq_div_pow, Nat.mod_eq_of_lt (by omega)]

theorem cmdY_toNat (w : PortBits) : (cmdY w).toNat = w.toNat / 2 ^ 10 % 2 ^ 10 := by
  rw [cmdY, BitVec.extractLsb'_toNat, Nat.shiftRight_eq_div_pow]

theorem cmdX_toNat (w : PortBits) : (cmdX w).toNat = w.toNat % 2 ^ 10 := by
  rw [cmdX, BitVec.extractLsb'_toNat, Nat.shiftRight_zero]

theorem cmdN_toNat (w : PortBits) : (cmdN w).toNat = w.toNat % 2 ^ 16 := by
  rw [cmdN, BitVec.extractLsb'_toNat, Nat.shiftRight_zero]

theorem cmdLow28_toNat (w : PortBits) : (cmdLow28 w).toNat = w.toNat % 2 ^ 28 := by
  rw [cmdLow28, BitVec.extractLsb'_toNat, Nat.shiftRight_zero]

theorem cmdMid12_toNat (w : PortBits) : (cmdMid12 w).toNat = w.toNat / 2 ^ 16 % 2 ^ 12 := by
  rw [cmdMid12, BitVec.extractLsb'_toNat, Nat.shiftRight_eq_div_pow]

theorem cmdC_eq_ofNat (w : PortBits) : cmdC w = BitVec.ofNat 8 (w.toNat / 2 ^ 20) := by
  rw [cmdC, BitVec.extractLsb', Nat.shiftRight_eq_div_pow]

/-! ### A command word is its fields, one after the other (30_encoding.md R59) -/

theorem cmdOp_append_low28 (w : PortBits) : cmdOp w ++ cmdLow28 w = w :=
  BitVec.extractLsb'_append_extractLsb'

theorem cmdOp_append_mid12_append_n (w : PortBits) : cmdOp w ++ cmdMid12 w ++ cmdN w = w := by
  have hop : cmdOp w ++ cmdMid12 w = w.extractLsb' 16 16 := BitVec.extractLsb'_append_extractLsb'_eq_extractLsb' rfl
  rw [hop]
  exact BitVec.extractLsb'_append_extractLsb'

theorem cmdOp_append_c_append_y_append_x (w : PortBits) : cmdOp w ++ cmdC w ++ cmdY w ++ cmdX w = w := by
  have hop : cmdOp w ++ cmdC w = w.extractLsb' 20 12 := BitVec.extractLsb'_append_extractLsb'_eq_extractLsb' rfl
  have hy : w.extractLsb' 20 12 ++ cmdY w = w.extractLsb' 10 22 := BitVec.extractLsb'_append_extractLsb'_eq_extractLsb' rfl
  rw [hop, hy]
  exact BitVec.extractLsb'_append_extractLsb'

/-! ### The match and the mask of each row, as conditions on the fields (30_encoding.md R52 to R55) -/

theorem append_eq_append_iff {m n : Nat} {a a' : BitVec m} {b b' : BitVec n} : a ++ b = a' ++ b' ↔ a = a' ∧ b = b' := by
  constructor
  · intro h
    have hhi := congrArg (BitVec.extractLsb' n m) h
    have hlo := congrArg (BitVec.extractLsb' 0 n) h
    rw [BitVec.extractLsb'_append_eq_left, BitVec.extractLsb'_append_eq_left] at hhi
    rw [BitVec.extractLsb'_append_eq_right, BitVec.extractLsb'_append_eq_right] at hlo
    exact ⟨hhi, hlo⟩
  · rintro ⟨rfl, rfl⟩
    rfl

theorem setpix_match_iff (w : PortBits) : w &&& 0xF0000000#32 = 0x10000000#32 ↔ cmdOp w = 0x1#4 := by
  have h : w &&& 0xF0000000#32 = cmdOp w ++ 0#28 := by
    conv_lhs => rw [← cmdOp_append_low28 w]
    exact Laws.append_and_mask (cmdOp w) (cmdLow28 w)
  rw [h]
  exact BitVec.append_left_inj (s₂ := 0x1#4) 0#28

/-- `SWAPREQ` and `DRAWBUF`: every bit of the word is fixed. -/
theorem fullMask_match_iff (w : PortBits) (op : BitVec 4) :
    w &&& 0xFFFFFFFF#32 = op ++ 0#28 ↔ cmdOp w = op ∧ cmdLow28 w = 0 := by
  have h : w &&& 0xFFFFFFFF#32 = cmdOp w ++ cmdLow28 w := BitVec.and_allOnes.trans (cmdOp_append_low28 w).symm
  rw [h]
  exact append_eq_append_iff

theorem regper_match_iff (w : PortBits) : w &&& 0xFFFF0000#32 = 0x40000000#32 ↔ cmdOp w = 0x4#4 ∧ cmdMid12 w = 0 := by
  have h : w &&& 0xFFFF0000#32 = cmdOp w ++ cmdMid12 w ++ 0#16 := by
    conv_lhs => rw [← cmdOp_append_mid12_append_n w]
    exact Laws.append_and_mask (cmdOp w ++ cmdMid12 w) (cmdN w)
  rw [h, ← append_eq_append_iff (b := cmdMid12 w)]
  exact BitVec.append_left_inj (s₂ := 0x4#4 ++ 0#12) 0#16

/-! ### What the command decoder answers (30_encoding.md R61) -/

section
variable {w : PortBits}

theorem decodeCmd_setpix (hop : cmdOp w = 0x1#4) :
    decodeCmd w = .operation (.setpix (cmdX w).toNat (cmdY w).toNat (cmdC w)) := by
  simp [decodeCmd, hop]

theorem decodeCmd_swapreq (h : cmdOp w = 0x2#4 ∧ cmdLow28 w = 0) : decodeCmd w = .operation .swapreq := by
  simp [decodeCmd, h]

theorem decodeCmd_drawbuf (h : cmdOp w = 0x3#4 ∧ cmdLow28 w = 0) : decodeCmd w = .operation .drawbuf := by
  simp [decodeCmd, h]

theorem decodeCmd_regper (h : cmdOp w = 0x4#4 ∧ cmdMid12 w = 0) : decodeCmd w = .operation (.regper (cmdN w).toNat) := by
  simp [decodeCmd, h]
end

/-- The reserved words: those that meet none of the four rows' conditions. `reservedCmd_iff_toNat` has the list of 30_encoding.md R60. -/
def reservedCmd (w : PortBits) : Prop :=
  cmdOp w ≠ 0x1#4 ∧ ¬(cmdOp w = 0x2#4 ∧ cmdLow28 w = 0) ∧ ¬(cmdOp w = 0x3#4 ∧ cmdLow28 w = 0) ∧
  ¬(cmdOp w = 0x4#4 ∧ cmdMid12 w = 0)

theorem decodeCmd_reserved {w : PortBits} (h : reservedCmd w) : decodeCmd w = .rejected .reservedCommand := by
  obtain ⟨h1, h2, h3, h4⟩ := h
  unfold decodeCmd
  rw [if_neg h1]
  split
  · next hop => exact if_neg fun hlow => h2 ⟨hop, hlow⟩
  · split
    · next hop => exact if_neg fun hlow => h3 ⟨hop, hlow⟩
    · split
      · next hop => exact if_neg fun hmid => h4 ⟨hop, hmid⟩
      · rfl

/-- Everything the command decoder can answer. -/
theorem decodeCmd_cases (w : PortBits) :
    (cmdOp w = 0x1#4 ∧ decodeCmd w = .operation (.setpix (cmdX w).toNat (cmdY w).toNat (cmdC w))) ∨
    ((cmdOp w = 0x2#4 ∧ cmdLow28 w = 0) ∧ decodeCmd w = .operation .swapreq) ∨
    ((cmdOp w = 0x3#4 ∧ cmdLow28 w = 0) ∧ decodeCmd w = .operation .drawbuf) ∨
    ((cmdOp w = 0x4#4 ∧ cmdMid12 w = 0) ∧ decodeCmd w = .operation (.regper (cmdN w).toNat)) ∨
    (reservedCmd w ∧ decodeCmd w = .rejected .reservedCommand) := by
  by_cases h1 : cmdOp w = 0x1#4
  · exact .inl ⟨h1, decodeCmd_setpix h1⟩
  by_cases h2 : cmdOp w = 0x2#4 ∧ cmdLow28 w = 0
  · exact .inr (.inl ⟨h2, decodeCmd_swapreq h2⟩)
  by_cases h3 : cmdOp w = 0x3#4 ∧ cmdLow28 w = 0
  · exact .inr (.inr (.inl ⟨h3, decodeCmd_drawbuf h3⟩))
  by_cases h4 : cmdOp w = 0x4#4 ∧ cmdMid12 w = 0
  · exact .inr (.inr (.inr (.inl ⟨h4, decodeCmd_regper h4⟩)))
  have hr : reservedCmd w := ⟨h1, h2, h3, h4⟩
  exact .inr (.inr (.inr (.inr ⟨hr, decodeCmd_reserved hr⟩)))

theorem decodeCmd_eq_rejected_iff (w : PortBits) : decodeCmd w = .rejected .reservedCommand ↔ reservedCmd w := by
  refine ⟨fun h => ?_, decodeCmd_reserved⟩
  rcases decodeCmd_cases w with ⟨-, hd⟩ | ⟨-, hd⟩ | ⟨-, hd⟩ | ⟨-, hd⟩ | ⟨hr, -⟩
  case inr.inr.inr.inr => exact hr
  all_goals cases hd.symm.trans h

theorem reservedCmd_iff_toNat (w : PortBits) : reservedCmd w ↔
    (w.toNat / 2 ^ 28 = 0 ∨ 5 ≤ w.toNat / 2 ^ 28) ∨
    ((w.toNat / 2 ^ 28 = 2 ∨ w.toNat / 2 ^ 28 = 3) ∧ w.toNat % 2 ^ 28 ≠ 0) ∨
    (w.toNat / 2 ^ 28 = 4 ∧ w.toNat / 2 ^ 16 % 2 ^ 12 ≠ 0) := by
  rw [← cmdOp_toNat, ← cmdLow28_toNat, ← cmdMid12_toNat]
  simp only [reservedCmd, ← BitVec.toNat_inj, ne_eq, BitVec.toNat_ofNat, BitVec.ofNat_eq_ofNat]
  omega

/-! ### Encode after decode (30_encoding.md R61) -/

theorem encode_decodeCmd {w : PortBits} {i : Instr} (h : decodeCmd w = .operation i) :
    i.wellFormed = true ∧ encode i = .cmd w := by
  rcases decodeCmd_cases w with ⟨hop, hd⟩ | ⟨hf, hd⟩ | ⟨hf, hd⟩ | ⟨⟨hop, hmid⟩, hd⟩ | ⟨-, hd⟩ <;> rw [hd] at h <;> cases h
  · have hw : encode (.setpix (cmdX w).toNat (cmdY w).toNat (cmdC w)) = .cmd (cmdOp w ++ cmdC w ++ cmdY w ++ cmdX w) := by
      simp only [encode, BitVec.ofNat_toNat, BitVec.setWidth_eq, hop]
    refine ⟨?_, hw.trans (congrArg _ (cmdOp_append_c_append_y_append_x w))⟩
    simp only [Instr.wellFormed, Bool.and_eq_true, decide_eq_true_eq]
    exact ⟨(cmdX w).isLt, (cmdY w).isLt⟩
  · exact ⟨rfl, congrArg PortWord.cmd (((fullMask_match_iff w 0x2#4).2 hf).symm.trans BitVec.and_allOnes)⟩
  · exact ⟨rfl, congrArg PortWord.cmd (((fullMask_match_iff w 0x3#4).2 hf).symm.trans BitVec.and_allOnes)⟩
  · have hw : encode (.regper (cmdN w).toNat) = .cmd (cmdOp w ++ cmdMid12 w ++ cmdN w) := by
      simp only [encode, BitVec.ofNat_toNat, BitVec.setWidth_eq, hop, hmid]
      rfl
    exact ⟨decide_eq_true (cmdN w).isLt, hw.trans (congrArg _ (cmdOp_append_mid12_append_n w))⟩

theorem encode_decodeEvt {level : Bit} {i : Instr} (h : decodeEvt level = .operation i) :
    i.wellFormed = true ∧ encode i = .evt level := by
  unfold decodeEvt at h
  split at h
  · next hl =>
    cases h
    exact ⟨rfl, congrArg PortWord.evt hl.symm⟩
  · cases h

theorem encode_decodeUop {code : BitVec 3} {i : Instr} (h : decodeUop code = .operation i) :
    i.wellFormed = true ∧ encode i = .uop code := by
  unfold decodeUop at h
  split at h <;> cases h
  all_goals
    next hcode => exact ⟨rfl, congrArg PortWord.uop (BitVec.eq_of_toNat_eq hcode.symm)⟩

/-- Settles O3: interface by interface, the operation is read from the word's fields, and the word is its fields. -/
theorem encodeOfDecodeIsIdentity : Obligations.EncodeOfDecodeIsIdentity := by
  intro w i h
  cases w with
  | cmd w => exact encode_decodeCmd h
  | evt level => exact encode_decodeEvt h
  | uop code => exact encode_decodeUop h

/-! ### The layouts of the command words (30_encoding.md R52 to R55) -/

theorem encode_setpix_eq_or {x y : Nat} (c : Byte) (hx : x < 2 ^ 10) (hy : y < 2 ^ 10) :
    encode (.setpix x y c) =
      .cmd (0x10000000#32 ||| (c.setWidth 32 <<< 20) ||| (BitVec.ofNat 32 y <<< 10) ||| BitVec.ofNat 32 x) := by
  have h := BitVec.setWidth_append_append_append_eq_shiftLeft_setWidth_or (w'''' := 32)
    (b := 0x1#4) (b' := c) (b'' := BitVec.ofNat 10 y) (b''' := BitVec.ofNat 10 x)
  rw [BitVec.setWidth_ofNat_of_le_of_lt (by omega) hx, BitVec.setWidth_ofNat_of_le_of_lt (by omega) hy] at h
  exact congrArg PortWord.cmd ((BitVec.setWidth_eq _).symm.trans h)

theorem encode_regper_eq_or {n : Nat} (hn : n < 2 ^ 16) :
    encode (.regper n) = .cmd (0x40000000#32 ||| BitVec.ofNat 32 n) := by
  have h := BitVec.setWidth_append_eq_shiftLeft_setWidth_or (w'' := 32) (b := 0x4#4 ++ 0#12) (b' := BitVec.ofNat 16 n)
  rw [BitVec.setWidth_ofNat_of_le_of_lt (by omega) hn] at h
  exact congrArg PortWord.cmd ((BitVec.setWidth_eq _).symm.trans h)

/-- Settles O4: the appended fields as shifted ones, and the fields of a word as numbers. -/
theorem setpixWordLayout : Obligations.SetpixWordLayout := by
  refine ⟨fun x y c hx hy => encode_setpix_eq_or c hx hy, fun w hw => ?_⟩
  rw [← cmdX_toNat, ← cmdY_toNat, ← cmdC_eq_ofNat]
  exact decodeCmd_setpix ((setpix_match_iff w).1 hw)

/-! ### The rows of the table (30_encoding.md R61) -/

/-- Every row's mask covers `op`. -/
theorem cmdOp_of_fits {r : CmdRow} {w : PortBits} (hr : r ∈ cmdRows) (h : r.fits w = true) : cmdOp w = cmdOp r.matchBits := by
  have hmask : ∀ r ∈ cmdRows, cmdOp r.mask = BitVec.allOnes 4 := by decide
  have hw : w &&& r.mask = r.matchBits := beq_iff_eq.1 h
  calc cmdOp w = cmdOp w &&& cmdOp r.mask := by rw [hmask r hr, BitVec.and_allOnes]
    _ = cmdOp (w &&& r.mask) := BitVec.extractLsb'_and.symm
    _ = cmdOp r.matchBits := by rw [hw]

theorem row_eq_of_cmdOp_eq : ∀ r ∈ cmdRows, ∀ r' ∈ cmdRows, cmdOp r.matchBits = cmdOp r'.matchBits → r = r' := by decide

theorem row_of_encode {i : Instr} {w : PortBits} (h : encode i = .cmd w) :
    ∃ r ∈ cmdRows, r.mnemonic = i.mnemonic ∧ r.fits w = true := by
  have hrow : Laws.FormatOfRow.Statement i := by
    cases i with
    | setpix x y c => exact Laws.FormatOfRow.setpix x y c
    | swapreq => exact Laws.FormatOfRow.swapreq
    | drawbuf => exact Laws.FormatOfRow.drawbuf
    | regper n => exact Laws.FormatOfRow.regper n
    | _ => cases h
  rw [Laws.FormatOfRow.Statement, h] at hrow
  exact hrow

theorem decodeCmd_of_fits {r : CmdRow} {w : PortBits} (hr : r ∈ cmdRows) (h : r.fits w = true) :
    ∃ i, decodeCmd w = .operation i ∧ i.mnemonic = r.mnemonic := by
  have hw : w &&& r.mask = r.matchBits := beq_iff_eq.1 h
  simp only [cmdRows, List.mem_cons, List.not_mem_nil, or_false] at hr
  rcases hr with rfl | rfl | rfl | rfl
  · exact ⟨_, decodeCmd_setpix ((setpix_match_iff w).1 hw), rfl⟩
  · exact ⟨_, decodeCmd_swapreq ((fullMask_match_iff w 0x2#4).1 hw), rfl⟩
  · exact ⟨_, decodeCmd_drawbuf ((fullMask_match_iff w 0x3#4).1 hw), rfl⟩
  · exact ⟨_, decodeCmd_regper ((regper_match_iff w).1 hw), rfl⟩

/-- Settles O7: the mask of every row covers `op`, and no two rows have one `op`; a word that is an operation is the operation's word, which has the
bits of its row; and the match of each row is the decoder's own test. -/
theorem commandRowsDecideTheDecoder : Obligations.CommandRowsDecideTheDecoder := by
  refine fun w => ⟨fun r hr r' hr' h h' => ?_, fun i hd => ?_, fun r hr h => decodeCmd_of_fits hr h⟩
  · exact row_eq_of_cmdOp_eq r hr r' hr' ((cmdOp_of_fits hr h).symm.trans (cmdOp_of_fits hr' h'))
  · exact row_of_encode (encode_decodeCmd hd).2

end Sys2Proof
end

section
/-! PROOFS. Commands that leave most or all of the state alone: which operations give a response (30_encoding.md R54), and what a step does with
a reserved word (R60). -/

namespace Sys2Proof.Machine

/-! ### The response (30_encoding.md R54) -/

/-- No operation but `DRAWBUF` gives a response. -/
theorem effect_responses {i : Instr} (hi : i ≠ .drawbuf) {s : State} (hw : s.topo.wf = true) :
    (effect i s).responses = s.responses := by
  cases i with
  | drawbuf => exact absurd rfl hi
  | setpix x y c => exact State.memWrite_responses ..
  | swapchk => exact s.swapCheck_responses
  | shiftrow =>
    rw [effect, State.shiftRows_eq]
    rfl
  | tick =>
    show s.tickOnce.responses = _
    unfold State.tickOnce
    split
    · rfl
    · split
      · rw [State.scanStep_record (s.setTickCnt 0) hw]
        exact State.atShift_responses _
      · rfl
  | _ => rfl

theorem exec_drawbuf {s : State} (hw : s.topo.wf = true) : exec .drawbuf s = .next s.answerDrawBuffer :=
  (exec_next_iff .drawbuf s _).2 ⟨hw, trivial, rfl⟩

/-- The `RSP` word: bit 0 is the bit answered, the others are 0 (30_encoding.md R54). -/
theorem response_fields (b : Bit) :
    (b.setWidth 32 : PortBits).extractLsb' 1 31 = 0#31 ∧ (b.setWidth 32 : PortBits).extractLsb' 0 1 = b := by
  revert b
  decide

/-- Settles O5: the layout of `REGPER`, the words that match a row, the response of `DRAWBUF`, and no other response. -/
theorem otherCommandWordLayouts : Obligations.OtherCommandWordLayouts := by
  refine ⟨fun n hn => encode_regper_eq_or hn, fun w hw => ?_, rfl, rfl,
    fun w hw => decodeCmd_swapreq ((fullMask_match_iff w 0x2#4).1 hw),
    fun w hw => decodeCmd_drawbuf ((fullMask_match_iff w 0x3#4).1 hw), fun s hs => ?_, fun i s t hi h => ?_⟩
  · rw [← cmdN_toNat]
    exact decodeCmd_regper ((regper_match_iff w).1 hw)
  · obtain ⟨hhigh, hlow⟩ := response_fields s.drawSel
    exact ⟨s.answerDrawBuffer, s.drawSel.setWidth 32, exec_drawbuf hs, rfl, hhigh, hlow⟩
  · obtain ⟨hw, -, rfl⟩ := (exec_next_iff i s t).1 h
    exact effect_responses hi hw

/-! ### Reserved words in a step (30_encoding.md R60) -/

/-- Between scan steps a step takes the command word that comes next (20_memory.md R40). -/
theorem step_command {s : State} {w : PortBits} {rest : List Input} (hw : s.topo.wf = true) (hp : s.phase = 0#3)
    (hin : s.inputs = .command w :: rest) : step s = runWord (.cmd w) { s with inputs := rest } := by
  have hfetch : s.fetch = .word (.cmd w) { s with inputs := rest } := by
    simp [State.fetch, hin, hp]
  rw [step, whenWellFormed_wf hw, hfetch]
  rfl

theorem runWord_rejected {w : PortWord} {why : Rejected} (h : decode w = .rejected why) (s : State) : runWord w s = .next s := by
  simp [runWord, h]

/-- Settles O6: the decoder's rejections by the fields of the word, which are R60's numbers; a step past such a word; and `op` 1. -/
theorem reservedCommandsAreIgnored : Obligations.ReservedCommandsAreIgnored := by
  refine fun w => ⟨(decodeCmd_eq_rejected_iff w).trans (reservedCmd_iff_toNat w), fun hd s rest hw hp hin => ?_, fun hop => ?_⟩
  · rw [step_command hw hp hin, runWord_rejected hd]
  · have h1 : cmdOp w = 0x1#4 := BitVec.eq_of_toNat_eq ((cmdOp_toNat w).trans hop)
    exact ⟨_, _, _, decodeCmd_setpix h1⟩

end Sys2Proof.Machine
end

section
/-! PROOF. The `PINS` word as a number (30_encoding.md R58). -/

namespace Sys2Proof.Machine

theorem toNat_append_eq_add {m n : Nat} (a : BitVec m) (b : BitVec n) : (a ++ b).toNat = a.toNat * 2 ^ n + b.toNat := by
  rw [BitVec.toNat_append, ← Nat.shiftLeft_add_eq_or_of_lt b.isLt, Nat.shiftLeft_eq]

/-- The pin word of any number of chains, field by field. -/
theorem Pins.word_toNat (p : Pins) (ha : p.addr < 32) :
    p.word.toNat = p.blank.toNat + p.lat.toNat * 2 + p.clk.toNat * 4 + p.addr * 8 + (p.data.getD 0 0#3).toNat * 2 ^ 8 +
      (p.data.getD 1 0#3).toNat * 2 ^ 11 := by
  have haddr : (BitVec.ofNat 5 p.addr).toNat = p.addr := by
    rw [BitVec.toNat_ofNat, Nat.mod_eq_of_lt ha]
  unfold Pins.word
  simp only [toNat_append_eq_add, haddr, BitVec.toNat_ofNat]
  omega

/-- Every chain's data lines are 0 after reset (10_state.md R23). -/
theorem Pins.reset_data_getD (T : Topology) (c : Nat) : (Pins.reset T).data.getD c 0#3 = 0#3 := by
  simp [Pins.reset]

/-- Settles O8: the pin word's fields as numbers, for one chain and for two; after reset every line but `BLANK` is 0. -/
theorem pinWordPacking : Obligations.PinWordPacking := by
  intro b l k a d0 d1 ha
  refine ⟨?_, ?_, fun T => ?_⟩
  · rw [Pins.word_toNat _ ha, List.getD_cons_zero, List.getD_cons_succ, List.getD_cons_zero]
  · rw [Pins.word_toNat _ ha, List.getD_cons_zero, List.getD_cons_succ, List.getD_nil]
    rfl
  · have haddr : (Pins.reset T).addr < 32 := Nat.zero_lt_succ 31
    refine BitVec.eq_of_toNat_eq ?_
    rw [Pins.word_toNat _ haddr, Pins.reset_data_getD, Pins.reset_data_getD]
    rfl

end Sys2Proof.Machine
end

section
/-! PROOFS. The invariant (10_state.md, 40 R80): the pin protocol over a trace, and every operation and every step keeps the invariant. -/

namespace Sys2Proof

theorem Topology.Facts.passes_pos {T : Topology} (f : T.Facts) : 0 < T.nPasses := by
  rcases f.passes with h | h <;> simp [h]

end Sys2Proof

namespace Sys2Proof.Machine

/-! ### The pin protocol of a trace (40 R80) -/

@[simp] theorem Pins.protocol_nil (p : Pins) : p.protocol [] = true := rfl

@[simp] theorem Pins.protocol_cons (p : Pins) (e : PinEvent) (es : List PinEvent) :
    p.protocol (e :: es) = (p.allows e && (p.apply e).protocol es) := rfl

@[simp] theorem Pins.replay_cons (p : Pins) (e : PinEvent) (es : List PinEvent) : p.replay (e :: es) = (p.apply e).replay es := rfl

@[simp] theorem Pins.protocol_append (p : Pins) (es fs : List PinEvent) :
    p.protocol (es ++ fs) = (p.protocol es && (p.replay es).protocol fs) := by
  induction es generalizing p with
  | nil => rfl
  | cons e es ih => simp [ih, Bool.and_assoc]

/-- A loop keeps the protocol when each round does, from pins that each round restores. -/
theorem Pins.protocol_flatMap {α : Type} {P : Pins → Prop} {f : α → List PinEvent}
    (round : ∀ p a, P p → p.protocol (f a) = true ∧ P (p.replay (f a))) (l : List α) {p : Pins} (hp : P p) :
    p.protocol (l.flatMap f) = true ∧ P (p.replay (l.flatMap f)) := by
  induction l generalizing p with
  | nil => exact ⟨rfl, hp⟩
  | cons a l ih =>
    obtain ⟨hprot, hnext⟩ := round p a hp
    obtain ⟨hprot', hend⟩ := ih hnext
    rw [List.flatMap_cons, Pins.protocol_append, Pins.replay_append, hprot, hprot']
    exact ⟨rfl, hend⟩

/-- The pins between two clock pulses of a `SHIFTROW`: output disabled, latch and clock low. -/
def Pins.readyToShift (p : Pins) : Prop := p.blank = 1#1 ∧ p.lat = 0#1 ∧ p.clk = 0#1

theorem Pins.pulse_keeps_protocol (p : Pins) (d : List Colour) (hp : p.readyToShift) :
    p.protocol (pulseEvents d) = true ∧ (p.replay (pulseEvents d)).readyToShift := by
  obtain ⟨hb, hl, hc⟩ := hp
  exact ⟨by simp [pulseEvents, Pins.allows, Pins.apply, hb, hl, hc], hb, hl, rfl⟩

/-- `SHIFTROW` keeps the protocol where the output is disabled and the clock is low. -/
theorem State.protocol_shiftEvents (s : State) {p : Pins} (hb : p.blank = 1#1) (hc : p.clk = 0#1) :
    p.protocol s.shiftEvents = true := by
  have pass : ∀ (q : Pins) (n : Nat), q.readyToShift →
      q.protocol (s.passEvents n) = true ∧ (q.replay (s.passEvents n)).readyToShift :=
    fun q n => Pins.protocol_flatMap (fun r k => Pins.pulse_keeps_protocol r (s.presented n k)) (List.range s.topo.width)
  have hlat : p.allows (.lat 0#1) = true := by simp [Pins.allows]
  rw [State.shiftEvents, Pins.protocol_cons, hlat]
  exact (Pins.protocol_flatMap pass (List.range s.topo.nPasses) (p := p.apply (.lat 0#1)) ⟨hb, rfl, hc⟩).1

/-! ### Events keep the invariant -/

/-- What the invariant asks of the pins at a phase, for a number of chains and an index, `BLANK` between scan steps being 0. -/
structure Pins.Rest (p : Pins) (chains index : Nat) (phase : BitVec 3) : Prop where
  data_length : p.data.length = chains
  lat_low : p.lat = 0#1
  clk_low : p.clk = 0#1
  addr_index : phase ≠ 3#3 → phase ≠ 4#3 → p.addr = index
  blank_inside : phase ≠ 0#3 → phase ≠ 1#3 → p.blank = 1#1
  blank_outside : phase = 0#3 → p.blank = 0#1

/-- Events that keep the protocol and leave the pins as the next phase wants them keep the invariant. -/
theorem State.Inv.emit {s : State} (h : s.Inv) {es : List PinEvent} {p : BitVec 3} (hprot : s.pins.protocol es = true)
    (hrest : (s.pins.replay es).Rest s.topo.nChains s.index p) : ((s.emit es).setPhase p).Inv :=
  { h with
    data_length := hrest.data_length
    lat_low := hrest.lat_low
    clk_low := hrest.clk_low
    addr_index := hrest.addr_index
    blank_inside := hrest.blank_inside
    blank_outside := fun hp => .inl (hrest.blank_outside hp)
    pins_replay := by
      show (Pins.reset s.topo).replay (s.trace ++ es) = s.pins.replay es
      rw [Pins.replay_append, h.pins_replay]
    protocol := by
      show (Pins.reset s.topo).protocol (s.trace ++ es) = true
      rw [Pins.protocol_append, h.protocol, h.pins_replay, hprot]
      rfl }

/-! ### Each micro-operation at its phase (40 R70) -/

section
variable {s : State} (h : s.Inv)
include h

theorem State.Inv.enterScanStep (hp : s.phase = 0#3) : s.enterScanStep.Inv :=
  { h with
    addr_index := fun _ _ => h.addr_index (by simp [hp]) (by simp [hp])
    blank_inside := fun _ hne => absurd rfl hne
    blank_outside := fun h0 => absurd h0 (by decide : (1#3 : BitVec 3) ≠ 0#3) }

theorem State.Inv.assertBlank (hp : s.phase = 1#3) : (s.assertBlank.setPhase 2#3).Inv :=
  h.emit (es := [.blank 1#1]) rfl
    { h with
      addr_index := fun _ _ => h.addr_index (by simp [hp]) (by simp [hp])
      blank_inside := fun _ _ => rfl
      blank_outside := fun h0 => absurd h0 (by decide) }

theorem State.Inv.blank_of_phase {p : BitVec 3} (hp : s.phase = p) (h0 : p ≠ 0#3) (h1 : p ≠ 1#3) : s.pins.blank = 1#1 :=
  h.blank_inside (hp ▸ h0) (hp ▸ h1)

theorem State.Inv.advanceIndex (hp : s.phase = 2#3) : (s.advanceIndex.setPhase 3#3).Inv :=
  { h with
    index_lt := Nat.mod_lt _ (Topology.wf_facts h.topo_wf).rows_pos
    addr_index := fun hne => absurd rfl hne
    blank_inside := fun _ _ => h.blank_of_phase hp (by decide) (by decide)
    blank_outside := fun h0 => absurd h0 (by decide : (3#3 : BitVec 3) ≠ 0#3) }

theorem State.Inv.swapCheck (hp : s.phase = 3#3) : (s.swapCheck.setPhase 4#3).Inv := by
  have h4 : (s.setPhase 4#3).Inv :=
    { h with
      addr_index := fun _ hne => absurd rfl hne
      blank_inside := fun _ _ => h.blank_of_phase hp (by decide) (by decide)
      blank_outside := fun h0 => absurd h0 (by decide : (4#3 : BitVec 3) ≠ 0#3) }
  rcases s.swapCheck_cases with ⟨-, -, hswap⟩ | ⟨-, hsame⟩
  · rw [hswap]
    exact { h4 with }
  · rw [hsame]
    exact h4

theorem State.Inv.index_lt_addr : s.index < 2 ^ s.topo.addrBits :=
  Nat.lt_of_lt_of_le h.index_lt (Topology.wf_facts h.topo_wf).rows_le

theorem State.Inv.setRowAddress (hp : s.phase = 4#3) : (s.setRowAddress.setPhase 5#3).Inv := by
  have hb := h.blank_of_phase hp (by decide) (by decide)
  rw [State.setRowAddress, Nat.mod_eq_of_lt h.index_lt_addr]
  exact h.emit (es := [.addr s.index]) (by simp [Pins.allows, hb])
    { h with
      addr_index := fun _ _ => rfl
      blank_inside := fun _ _ => hb
      blank_outside := fun h0 => absurd h0 (by decide) }

theorem State.Inv.shiftRows (hp : s.phase = 5#3) : (s.shiftRows.setPhase 6#3).Inv := by
  have f := Topology.wf_facts h.topo_wf
  have hb := h.blank_of_phase hp (by decide) (by decide)
  have hev : ((s.emit s.shiftEvents).setPhase 6#3).Inv := by
    refine h.emit (s.protocol_shiftEvents hb h.clk_low) ?_
    rw [s.replay_shiftEvents _ f.width_pos f.passes_pos]
    exact
      { data_length := s.presented_length ..
        lat_low := rfl
        clk_low := rfl
        addr_index := fun _ _ => h.addr_index (by simp [hp]) (by simp [hp])
        blank_inside := fun _ _ => hb
        blank_outside := fun h0 => absurd h0 (by decide) }
  rw [State.shiftRows_eq]
  exact { hev with loop_idle := ⟨rfl, rfl⟩ }

theorem State.Inv.pulseLatch (hp : s.phase = 6#3) : (s.pulseLatch.setPhase 7#3).Inv := by
  have hb := h.blank_of_phase hp (by decide) (by decide)
  have hev : s.pulseLatch = s.emit [.lat 1#1, .lat 0#1] := by
    rw [State.pulseLatch, State.driveLat_eq_emit, State.driveLat_eq_emit, ← State.emit_append]
    rfl
  rw [hev]
  exact h.emit (by simp [Pins.allows, Pins.apply, hb, h.clk_low])
    { h with
      lat_low := rfl
      addr_index := fun _ _ => h.addr_index (by simp [hp]) (by simp [hp])
      blank_inside := fun _ _ => hb
      blank_outside := fun h0 => absurd h0 (by decide) }

theorem State.Inv.releaseBlank (hp : s.phase = 7#3) : (s.releaseBlank.setPhase 0#3).Inv :=
  h.emit (es := [.blank 0#1]) rfl
    { h with
      addr_index := fun _ _ => h.addr_index (by simp [hp]) (by simp [hp])
      blank_inside := fun h0 => absurd rfl h0
      blank_outside := fun _ => rfl }

/-- A scan step run whole keeps the invariant, micro-operation by micro-operation. -/
theorem State.Inv.scanStep (hp : s.phase = 0#3) : s.scanStep.Inv :=
  ((((((((h.enterScanStep hp).assertBlank rfl).advanceIndex rfl).swapCheck rfl).setRowAddress rfl).shiftRows rfl).pulseLatch
    rfl).releaseBlank rfl)
end

/-! ### Each move keeps the invariant -/

/-- The micro-operation at each phase (30_encoding.md R57). -/
theorem decodeUop_operation {p : BitVec 3} {i : Instr} (h : decodeUop p = .operation i) :
    (p = 1#3 ∧ i = .blank) ∨ (p = 2#3 ∧ i = .advance) ∨ (p = 3#3 ∧ i = .swapchk) ∨ (p = 4#3 ∧ i = .setaddr) ∨
      (p = 5#3 ∧ i = .shiftrow) ∨ (p = 6#3 ∧ i = .latch) ∨ (p = 7#3 ∧ i = .unblank) := by
  unfold decodeUop at h
  split at h <;> cases h
  all_goals revert p; decide

theorem State.swapCheck_setPhase (s : State) (p : BitVec 3) : (s.setPhase p).swapCheck = s.swapCheck.setPhase p := by
  simpa using s.swapCheck_emit [] p

theorem State.shiftRows_setPhase (s : State) (p : BitVec 3) : (s.setPhase p).shiftRows = s.shiftRows.setPhase p := by
  simpa [State.shiftRows_eq s] using s.shiftRows_emit [] p

/-- The effect of the micro-operation at the phase, with the phase gone on, keeps the invariant. -/
theorem State.Inv.microOp {s : State} (h : s.Inv) {i : Instr} (hd : decodeUop s.phase = .operation i) :
    (effect i (s.setPhase (s.phase + 1#3))).Inv := by
  rcases decodeUop_operation hd with ⟨hp, rfl⟩ | ⟨hp, rfl⟩ | ⟨hp, rfl⟩ | ⟨hp, rfl⟩ | ⟨hp, rfl⟩ | ⟨hp, rfl⟩ | ⟨hp, rfl⟩ <;>
    rw [hp]
  · exact h.assertBlank hp
  · exact h.advanceIndex hp
  · exact (congrArg State.Inv (s.swapCheck_setPhase 4#3)).mpr (h.swapCheck hp)
  · exact h.setRowAddress hp
  · exact (congrArg State.Inv (s.shiftRows_setPhase 6#3)).mpr (h.shiftRows hp)
  · exact h.pulseLatch hp
  · exact h.releaseBlank hp

theorem State.Inv.withInputs {s : State} (h : s.Inv) (rest : List Input) : ({ s with inputs := rest } : State).Inv :=
  { h with }

theorem storedColour_lt (c : Byte) : (storedColour c).toNat < 8 := by
  rw [storedColour, BitVec.toNat_setWidth_of_le (by decide)]
  exact (colourOf c).isLt

/-- A store of a colour in the plane keeps a plane's cells (20_memory.md R30, R32). -/
theorem planeFits_write {T : Topology} {m : List Host.Cell} (h : planeFits T m = true) {a : Nat} {v : Byte}
    (ha : a < T.planeSize) (hv : v.toNat < 8) : planeFits T (Memory.write m a v) = true := by
  refine List.all_eq_true.2 fun cell hmem => ?_
  rcases Memory.mem_write hmem with rfl | hmem
  · simp [ha, hv]
  · exact List.all_eq_true.1 h cell hmem

theorem State.Inv.storePixel {s : State} (h : s.Inv) {x y : Nat} (c : Byte) (hx : x < s.topo.width) (hy : y < s.topo.height) :
    (s.storePixel x y c).Inv := by
  have hoff := Topology.pixelOffset_lt (T := s.topo) (Topology.bufferRow_lt hy) hx
  unfold State.storePixel State.memWrite
  split
  · exact { h with
      plane0_wf := Memory.write_wf h.plane0_wf _ _
      plane0_fits := planeFits_write h.plane0_fits hoff (storedColour_lt c) }
  · exact { h with
      plane1_wf := Memory.write_wf h.plane1_wf _ _
      plane1_fits := planeFits_write h.plane1_fits hoff (storedColour_lt c) }

theorem State.Inv.mainLoop {s : State} (h : s.Inv) {i : Instr} (hi : i.context = .mainLoop) (hc : completesOn s.topo i) :
    (effect i s).Inv := by
  cases i with
  | setpix x y c => exact h.storePixel c hc.1 hc.2
  | swapreq | drawbuf => exact { h with }
  | regper n =>
    have hcount : s.topo.intervalValue n ≠ 0 → 0 < s.topo.intervalValue n := Nat.pos_of_ne_zero
    exact { h with interval_lt := s.topo.intervalValue_lt n, count_lt := hcount, count_idle := fun _ => rfl }
  | _ => cases hi

theorem State.Inv.tickOnce {s : State} (h : s.Inv) (hp : s.phase = 0#3) : s.tickOnce.Inv := by
  unfold State.tickOnce
  split
  · exact h
  · next hne =>
    split
    · have h0 : (s.setTickCnt 0).Inv := { h with count_lt := Nat.pos_of_ne_zero, count_idle := fun _ => rfl }
      exact h0.scanStep hp
    · next hlt =>
      exact { h with count_lt := fun _ => Nat.lt_of_not_le hlt, count_idle := fun hz => absurd hz hne }

/-- After reset nothing is listed in the planes and the trace is empty (10_state.md R23). -/
theorem State.inv_resetFor {T : Topology} (hT : T.wf = true) : (State.resetFor T).Inv where
  topo_wf := hT
  index_lt := (Topology.wf_facts hT).rows_pos
  interval_lt := Nat.two_pow_pos _
  count_lt := fun h => absurd rfl h
  count_idle := fun _ => rfl
  plane0_wf := List.Pairwise.nil
  plane1_wf := List.Pairwise.nil
  plane0_fits := rfl
  plane1_fits := rfl
  data_length := List.length_replicate
  loop_idle := ⟨rfl, rfl⟩
  lat_low := rfl
  clk_low := rfl
  addr_index := fun _ _ => rfl
  blank_inside := fun h => absurd rfl h
  blank_outside := fun _ => .inr rfl
  pins_replay := rfl
  protocol := rfl

/-- Everything a step that answers a next state can do, with words decoded: `rst`, nothing, a micro-operation, a command, a tick, or the loss of a
move that is no operation. -/
theorem step_moves {s t : State} (hst : step s = .next t) : s.topo.wf = true ∧
    ((∃ rest, t = s.afterReset rest) ∨ t = s ∨
      (∃ i, decodeUop s.phase = .operation i ∧ t = effect i (s.setPhase (s.phase + 1#3))) ∨
      ∃ rest, (∃ i, i.context = .mainLoop ∧ completesOn s.topo i ∧ t = effect i { s with inputs := rest }) ∨
        (s.phase = 0#3 ∧ t = ({ s with inputs := rest } : State).tickOnce) ∨ t = { s with inputs := rest }) := by
  obtain ⟨hw, hcases⟩ := step_cases hst
  refine ⟨hw, ?_⟩
  rcases hcases with ⟨rest, -, rfl⟩ | ⟨-, -, rfl⟩ | ⟨hp, hrun⟩ | ⟨w, rest, -, -, hrun⟩ | ⟨l, rest, -, hp, hrun⟩
  · exact .inl ⟨rest, rfl⟩
  · exact .inr (.inl rfl)
  · rcases runWord_next hrun with ⟨i, hd, he⟩ | ⟨why, hd, -⟩
    · obtain ⟨-, -, rfl⟩ := (exec_next_iff ..).1 he
      exact .inr (.inr (.inl ⟨i, hd, rfl⟩))
    · exact absurd hd (decodeUop_ne_rejected hp why)
  · rcases runWord_next hrun with ⟨i, hd, he⟩ | ⟨why, -, rfl⟩
    · obtain ⟨-, hc, rfl⟩ := (exec_next_iff ..).1 he
      exact .inr (.inr (.inr ⟨rest, .inl ⟨i, decodeCmd_context hd, hc, rfl⟩⟩))
    · exact .inr (.inr (.inr ⟨rest, .inr (.inr rfl)⟩))
  · rcases runWord_next hrun with ⟨i, hd, he⟩ | ⟨why, -, rfl⟩
    · obtain rfl := decodeEvt_operation hd
      obtain ⟨-, -, rfl⟩ := (exec_next_iff ..).1 he
      exact .inr (.inr (.inr ⟨rest, .inr (.inl ⟨hp, rfl⟩)⟩))
    · exact .inr (.inr (.inr ⟨rest, .inr (.inr rfl)⟩))

/-- Settles O46: each move of `step_moves` keeps the invariant. -/
theorem everyStepKeepsTheInvariant : Obligations.EveryStepKeepsTheInvariant := by
  intro s t h hst
  obtain ⟨hw, ⟨rest, rfl⟩ | rfl | ⟨i, hd, rfl⟩ | ⟨rest, ⟨i, hi, hc, rfl⟩ | ⟨hp, rfl⟩ | rfl⟩⟩ := step_moves hst
  · exact (State.inv_resetFor hw).withInputs rest
  · exact h
  · exact h.microOp hd
  · exact (h.withInputs rest).mainLoop hi hc
  · exact (h.withInputs rest).tickOnce hp
  · exact h.withInputs rest

end Sys2Proof.Machine
end

section
/-! PROOFS. The micro-operations `BLANK`, `ADVANCE` and `SETADDR`, one by one (40 R71 to R73). -/

namespace Sys2Proof.Machine

theorem exec_effect {i : Instr} {s : State} (hw : s.topo.wf = true) (hc : completesOn s.topo i) :
    exec i s = .next (effect i s) :=
  (exec_next_iff i s _).2 ⟨hw, hc, rfl⟩

theorem completed_exec {i : Instr} {s : State} (hw : s.topo.wf = true) (hc : completesOn s.topo i) :
    (completed (exec i s)).getD s = effect i s := by
  rw [exec_effect hw hc]
  rfl

/-! ### BLANK (40 R71) -/

/-- The pins after `SHIFTROW` (41 R85); `BLANK` and `ADDR` are as before. -/
theorem State.shiftRows_pins {s : State} (hw : s.topo.wf = true) :
    s.shiftRows.pins = { s.pins with lat := 0#1, clk := 0#1, data := s.lastPresented } := by
  have f := Topology.wf_facts hw
  rw [State.shiftRows_eq]
  exact s.replay_shiftEvents s.pins f.width_pos f.passes_pos

/-- Settles O23: the event of `BLANK`, and the effects of the five operations up to `UNBLANK` on the pin. -/
theorem blankAssertsOutputDisable : Obligations.BlankAssertsOutputDisable := by
  refine fun s hw => ⟨exec_effect hw trivial, fun i hi => ?_⟩
  simp only [List.mem_cons, List.not_mem_nil, or_false] at hi
  rcases hi with rfl | rfl | rfl | rfl | rfl
  · exact ⟨_, exec_effect hw trivial, rfl⟩
  · exact ⟨_, exec_effect hw trivial, congrArg Pins.blank s.swapCheck_pins⟩
  · exact ⟨_, exec_effect hw trivial, rfl⟩
  · exact ⟨_, exec_effect hw trivial, (congrArg Pins.blank (State.shiftRows_pins hw)).trans rfl⟩
  · exact ⟨_, exec_effect hw trivial, rfl⟩

/-! ### ADVANCE (40 R72) -/

/-- `n` times `ADVANCE`, from a legal index. -/
theorem advance_iterate {s : State} (hw : s.topo.wf = true) (hi : s.index < s.topo.rowsPerScan) (n : Nat) :
    (fun u => (completed (exec .advance u)).getD u)^[n] s = s.setIndex ((s.index + n) % s.topo.rowsPerScan) := by
  induction n with
  | zero => exact congrArg s.setIndex (Nat.mod_eq_of_lt hi).symm
  | succ n ih =>
    have hone : ∀ v, (completed (exec .advance (s.setIndex v))).getD (s.setIndex v) =
        s.setIndex ((v + 1) % s.topo.rowsPerScan) :=
      fun v => completed_exec (i := .advance) (s := s.setIndex v) hw trivial
    rw [Function.iterate_succ_apply', ih, hone, Nat.mod_add_mod, Nat.add_assoc]

/-- Counting on from `i` modulo `m` reaches each value at exactly one count below `m`. -/
theorem existsUnique_add_mod {m i v : Nat} (hi : i < m) (hv : v < m) : ∃! n, n < m ∧ (i + n) % m = v := by
  have hm : 0 < m := Nat.zero_lt_of_lt hv
  refine ⟨(v + (m - i)) % m, ⟨Nat.mod_lt _ hm, ?_⟩, fun n hn => ?_⟩
  · rw [Nat.add_mod_mod, show i + (v + (m - i)) = v + m by omega, Nat.add_mod_right, Nat.mod_eq_of_lt hv]
  · obtain ⟨hlt, rfl⟩ := hn
    rw [Nat.mod_add_mod, show i + n + (m - i) = n + m by omega, Nat.add_mod_right, Nat.mod_eq_of_lt hlt]

/-- Settles O24: one `ADVANCE`, its wrap, and `n` of them as one addition modulo `ROWS_PER_SCAN`. -/
theorem advanceIsPeriodic : Obligations.AdvanceIsPeriodic := by
  intro s hw
  have hadv : exec .advance s = .next { s with index := (s.index + 1) % s.topo.rowsPerScan } := exec_effect hw trivial
  refine ⟨hadv, fun hlast => ?_, fun hi v hv => ?_⟩
  · have hr := (Topology.wf_facts hw).rows_pos
    rw [hadv, hlast, Nat.sub_add_cancel hr, Nat.mod_self]
  · obtain ⟨n, ⟨hn, hnv⟩, huniq⟩ := existsUnique_add_mod hi hv
    refine ⟨n, ⟨hn, by rw [advance_iterate hw hi, hnv]; rfl⟩, fun k hk => huniq k ⟨hk.1, ?_⟩⟩
    have hstate := hk.2
    rw [advance_iterate hw hi] at hstate
    exact congrArg State.index hstate

/-! ### SETADDR (40 R73) -/

/-- Settles O25: the bits below `ADDR_BITS` are the index modulo `2 ^ ADDR_BITS`, which a legal index is below. -/
theorem setaddrDrivesTheIndex : Obligations.SetaddrDrivesTheIndex := by
  intro s hw
  have hset : exec .setaddr s = .next (s.driveAddr (s.index % 2 ^ s.topo.addrBits)) := exec_effect hw trivial
  refine ⟨⟨_, fun b => Nat.testBit_mod_two_pow .., hset⟩, fun hi => ?_⟩
  have hlt : s.index < 2 ^ s.topo.addrBits := Nat.lt_of_lt_of_le hi (Topology.wf_facts hw).rows_le
  rw [hset, Nat.mod_eq_of_lt hlt]
  rfl

end Sys2Proof.Machine
end

section
/-! PROOFS. What a firing `TICK` leaves, its trace and its counts (40 R70, R74, R75, R77, R78). -/

namespace Sys2Proof.Machine

/-! ### The state that a firing `TICK` leaves (44 R121, 40 R70) -/

/-- The state that a firing `TICK` leaves: the count cleared, the scan step run whole. `exec_tick_firing` ties it to the operation. -/
def State.fired (s : State) : State := (s.setTickCnt 0).scanStep

/-- What the chains carry, and so the events of the scan step, depends on the topology, the index, the roles and the planes alone. -/
theorem State.scanEvents_congr {s t : State} (hT : t.topo = s.topo) (hi : t.index = s.index) (hd : t.drawSel = s.drawSel)
    (h0 : t.plane0 = s.plane0) (h1 : t.plane1 = s.plane1) : t.scanEvents = s.scanEvents := by
  have hpass : t.passEvents = s.passEvents := funext (State.passEvents_congr hT hi hd h0 h1)
  simp only [State.scanEvents, State.shiftEvents, hpass, hT, hi]

/-- The events of a scan step written out (40 R77), with the topology's counts of a state that has the same topology. -/
theorem State.scanEvents_eq {s : State} {T : Topology} (hT : s.topo = T) :
    s.scanEvents = [PinEvent.blank 1#1, .addr s.index, .lat 0#1] ++ (List.range T.nPasses).flatMap (fun p =>
      (List.range T.width).flatMap (fun k => [PinEvent.data (s.presented p k), .clk 1#1, .clk 0#1])) ++
      [PinEvent.lat 1#1, .lat 0#1, .blank 0#1] := by
  subst hT
  rfl

/-- A swap check leaves all but the roles and the flag. -/
theorem State.atShift_frame (s : State) : s.atShift = { s with
    index := (s.index + 1) % s.topo.rowsPerScan, drawSel := s.atShift.drawSel, swapPending := s.atShift.swapPending } := by
  rcases s.advanceIndex.swapCheck_cases with ⟨-, -, h⟩ | ⟨-, h⟩ <;> rw [State.atShift, h] <;> rfl

/-- The roles change, and the flag is cleared, exactly at index 0 with a swap pending (42 R102). -/
theorem State.atShift_roles (s : State) :
    (((s.index + 1) % s.topo.rowsPerScan = 0 ∧ s.swapPending = 1#1) ∧
      s.atShift.drawSel = s.drawSel ^^^ 1#1 ∧ s.atShift.swapPending = 0#1) ∨
    (¬((s.index + 1) % s.topo.rowsPerScan = 0 ∧ s.swapPending = 1#1) ∧
      s.atShift.drawSel = s.drawSel ∧ s.atShift.swapPending = s.swapPending) := by
  rcases s.advanceIndex.swapCheck_cases with ⟨h0, h1, h⟩ | ⟨hnot, h⟩
  · exact .inl ⟨⟨h0, h1⟩, congrArg State.drawSel h, congrArg State.swapPending h⟩
  · exact .inr ⟨hnot, (congrArg State.drawSel h).trans rfl, (congrArg State.swapPending h).trans rfl⟩

section
variable {s : State} (hw : s.topo.wf = true)
include hw

theorem exec_tick_firing (hpos : s.interval ≠ 0) (hdue : s.interval ≤ s.tickCnt + 1) : exec .tick s = .next s.fired := by
  have hfire : s.tickOnce = s.fired := by rw [State.tickOnce, if_neg hpos, if_pos hdue, State.fired]
  rw [← hfire]
  exact exec_effect hw trivial

theorem State.fired_record : s.fired = { (s.setTickCnt 0).atShift with
    phase := 0#3, pass := 0, col := 0, pins := (s.setTickCnt 0).atShift.restPins
    trace := s.trace ++ (s.setTickCnt 0).atShift.scanEvents } := by
  rw [State.fired, State.scanStep_record (s.setTickCnt 0) hw]
  rfl

/-- Everything a firing `TICK` leaves, but for the roles and the flag, which `State.fired_roles` gives. -/
theorem State.fired_frame : s.fired = { s with
    index := (s.index + 1) % s.topo.rowsPerScan, drawSel := s.fired.drawSel, swapPending := s.fired.swapPending, tickCnt := 0
    pins := s.fired.restPins, trace := s.trace ++ s.fired.scanEvents, phase := 0#3, pass := 0, col := 0 } := by
  have hrec := State.fired_record hw
  have hev : s.fired.scanEvents = (s.setTickCnt 0).atShift.scanEvents := by
    rw [hrec]; exact State.scanEvents_congr rfl rfl rfl rfl rfl
  have hpins : s.fired.restPins = (s.setTickCnt 0).atShift.restPins := by
    rw [hrec]; rfl
  rw [hev, hpins, hrec, State.atShift_frame]
  rfl

theorem State.fired_topo : s.fired.topo = s.topo := (congrArg State.topo (State.fired_frame hw)).trans rfl

theorem State.fired_index : s.fired.index = (s.index + 1) % s.topo.rowsPerScan := congrArg State.index (State.fired_frame hw)

theorem State.fired_pins : s.fired.pins = s.fired.restPins := congrArg State.pins (State.fired_frame hw)

theorem State.fired_trace : s.fired.trace = s.trace ++ s.fired.scanEvents := congrArg State.trace (State.fired_frame hw)

theorem State.fired_roles :
    ((s.fired.index = 0 ∧ s.swapPending = 1#1) ∧ s.fired.drawSel = s.drawSel ^^^ 1#1 ∧ s.fired.swapPending = 0#1) ∨
    (¬(s.fired.index = 0 ∧ s.swapPending = 1#1) ∧ s.fired.drawSel = s.drawSel ∧ s.fired.swapPending = s.swapPending) := by
  rw [State.fired_index hw, State.fired_record hw]
  exact (s.setTickCnt 0).atShift_roles
end

/-- Settles O36: the two cases of the swap check, and the frame, the pins and the trace of `State.fired`. -/
theorem firingTickShowsOneRowGroup : Obligations.FiringTickShowsOneRowGroup := by
  intro s hw hpos hdue
  have hpins : s.fired.pins = ⟨0#1, 0#1, 0#1, s.fired.index, s.fired.presented (s.topo.nPasses - 1) (s.topo.width - 1)⟩ := by
    rw [State.fired_pins hw, State.restPins, State.lastPresented, State.fired_topo hw]
  have htrace := State.fired_trace hw
  rw [State.scanEvents_eq (State.fired_topo hw)] at htrace
  have hframe : s.fired = { s with
      index := s.fired.index, drawSel := s.fired.drawSel, swapPending := s.fired.swapPending, tickCnt := 0
      pins := s.fired.pins, trace := s.fired.trace, phase := 0#3, pass := 0, col := 0 } := by
    rw [State.fired_index hw, State.fired_pins hw, State.fired_trace hw]
    exact State.fired_frame hw
  refine ⟨s.fired, exec_tick_firing hw hpos hdue, State.fired_index hw, ?_, ?_, hpins, htrace, hframe⟩ <;>
    rcases State.fired_roles hw with ⟨hdo, hroles⟩ | ⟨hnot, hroles⟩
  · exact fun _ => hroles
  · exact fun h => absurd h hnot
  · exact fun h => absurd hdo h
  · exact fun _ => hroles

/-! ### The last events of a scan step (40 R74, R75) -/

theorem getLast?_flatMap_of_forall {α β : Type} {f : α → List β} {b : β} (hf : ∀ a, (f a).getLast? = some b) {l : List α}
    (hl : l ≠ []) : (l.flatMap f).getLast? = some b := by
  obtain ⟨a, as, hrev⟩ := List.exists_cons_of_ne_nil (List.reverse_ne_nil_iff.2 hl)
  simp [List.getLast?_flatMap, hrev, hf]

/-- The last event of `SHIFTROW` is the fall of its last clock pulse. -/
theorem State.getLast?_shiftEvents {s : State} (hw : s.topo.wf = true) : s.shiftEvents.getLast? = some (.clk 0#1) := by
  have f := Topology.wf_facts hw
  have hrange : ∀ n, 0 < n → List.range n ≠ [] := fun n hn h => Nat.ne_of_gt hn (List.range_eq_nil.1 h)
  have hpass : ∀ p, (s.passEvents p).getLast? = some (.clk 0#1) :=
    fun p => getLast?_flatMap_of_forall (fun _ => rfl) (hrange _ f.width_pos)
  simp [State.shiftEvents, List.getLast?_cons, getLast?_flatMap_of_forall hpass (hrange _ f.passes_pos)]

/-- No event of `SHIFTROW` raises the latch. -/
theorem State.lat_notMem_shiftEvents (s : State) : .lat 1#1 ∉ s.shiftEvents := by
  simp [State.shiftEvents, State.passEvents, pulseEvents]

theorem exec_latch {s : State} (hw : s.topo.wf = true) :
    exec .latch s = .next { s with pins := { s.pins with lat := 0#1 }, trace := s.trace ++ [.lat 1#1, .lat 0#1] } := by
  rw [exec_effect (i := .latch) hw trivial]
  simp [effect, State.pulseLatch, State.driveLat]

/-- Settles O26: the two events of `LATCH`; in a scan step they come after the events of `SHIFTROW`, of which none raises the latch and the last is
the fall of the clock. -/
theorem latchPulses : Obligations.LatchPulses := by
  refine fun s hw => ⟨exec_latch hw, fun hpos hdue => ?_⟩
  have hfired : s.fired.topo.wf = true := State.fired_topo hw ▸ hw
  refine ⟨s.fired, [.blank 1#1, .addr s.fired.index] ++ s.fired.shiftEvents, exec_tick_firing hw hpos hdue, ?_, ?_, ?_⟩
  · rw [State.fired_trace hw, State.scanEvents, ← List.append_assoc]
  · simpa using s.fired.lat_notMem_shiftEvents
  · rw [List.getLast?_append, State.getLast?_shiftEvents hfired]
    rfl

/-- Outside a scan step no operation of the two agents touches a pin or the trace (40 R75). -/
theorem effect_pins_of_no_scanStep {i : Instr} {s : State}
    (hi : i.context = .mainLoop ∨ (i = .tick ∧ (s.interval = 0 ∨ s.tickCnt + 1 < s.interval))) :
    (effect i s).pins = s.pins ∧ (effect i s).trace = s.trace := by
  rcases hi with hi | ⟨rfl, hidle⟩
  · cases i with
    | setpix x y c => exact ⟨State.memWrite_pins .., State.memWrite_trace ..⟩
    | swapreq | drawbuf | regper n => exact ⟨rfl, rfl⟩
    | _ => cases hi
  · have hcount : s.tickOnce = s ∨ s.tickOnce = s.setTickCnt (s.tickCnt + 1) := by
      rcases hidle with hzero | hlt
      · exact .inl (if_pos hzero)
      · exact .inr ((if_neg (by omega)).trans (if_neg (by omega)))
    show s.tickOnce.pins = s.pins ∧ s.tickOnce.trace = s.trace
    rcases hcount with h | h <;> rw [h] <;> exact ⟨rfl, rfl⟩

/-- Settles O27: the event of `UNBLANK`, the last of `State.scanEvents`, and the operations that make no scan step. -/
theorem unblankReleasesOutputDisable : Obligations.UnblankReleasesOutputDisable := by
  refine fun s hw => ⟨exec_effect hw trivial, fun hpos hdue => ?_, fun i t hi hex => ?_⟩
  · refine ⟨s.fired, exec_tick_firing hw hpos hdue, ?_⟩
    rw [State.fired_trace hw, State.scanEvents, List.getLast?_append, List.getLast?_append]
    rfl
  · obtain ⟨-, -, rfl⟩ := (exec_next_iff ..).1 hex
    exact effect_pins_of_no_scanStep hi

/-! ### The counts of a scan step (40 R78) -/

@[simp] theorem pixelValuesIn_nil : pixelValuesIn [] = 0 := rfl

@[simp] theorem pixelValuesIn_cons (e : PinEvent) (es : List PinEvent) : pixelValuesIn (e :: es) = e.pixelValues + pixelValuesIn es :=
  List.sum_cons

@[simp] theorem pixelValuesIn_append (es fs : List PinEvent) : pixelValuesIn (es ++ fs) = pixelValuesIn es + pixelValuesIn fs := by
  simp [pixelValuesIn]

theorem pixelValuesIn_flatMap {α : Type} {f : α → List PinEvent} {n : Nat} (hf : ∀ a, pixelValuesIn (f a) = n) (l : List α) :
    pixelValuesIn (l.flatMap f) = l.length * n := by
  induction l with
  | nil => simp
  | cons a l ih => simp [ih, hf, Nat.add_mul, Nat.add_comm]

/-- `SHIFTROW` presents one value per pass, pulse and chain. -/
theorem State.pixelValuesIn_shiftEvents (s : State) :
    pixelValuesIn s.shiftEvents = s.topo.nPasses * s.topo.width * s.topo.nChains := by
  have hpulse : ∀ p k, pixelValuesIn (pulseEvents (s.presented p k)) = s.topo.nChains := by
    intro p k
    simp [pulseEvents, PinEvent.pixelValues]
  have hpass : ∀ p, pixelValuesIn (s.passEvents p) = s.topo.width * s.topo.nChains := by
    intro p
    rw [State.passEvents, pixelValuesIn_flatMap (hpulse p), List.length_range]
  rw [State.shiftEvents, pixelValuesIn_cons, pixelValuesIn_flatMap hpass, List.length_range, Nat.mul_assoc]
  exact Nat.zero_add _

/-- `SHIFTROW` raises the clock once per pass and pulse. -/
theorem State.count_clk_shiftEvents (s : State) : s.shiftEvents.count (.clk 1#1) = s.topo.nPasses * s.topo.width := by
  have hpulse : ∀ d, (pulseEvents d).count (.clk 1#1) = 1 := fun _ => rfl
  have hpass : ∀ p, (s.passEvents p).count (.clk 1#1) = s.topo.width := by
    intro p
    simp [State.passEvents, List.count_flatMap, Function.comp_def, hpulse]
  simp [State.shiftEvents, List.count_flatMap, Function.comp_def, hpass]

/-- Settles O37: each count over `State.scanEvents`, the events that a firing `TICK` appends. -/
theorem scanStepCounts : Obligations.ScanStepCounts := by
  intro s t hw hpos hdue hex
  rw [exec_tick_firing hw hpos hdue] at hex
  cases hex
  have htopo := State.fired_topo hw
  rw [State.fired_trace hw]
  refine ⟨?_, ?_, ?_, ?_, ?_⟩
  · rw [List.length_append, State.scanEvents_length, htopo]
  · rw [List.count_append, ← htopo, ← State.count_clk_shiftEvents]
    simp [State.scanEvents]
  · rw [pixelValuesIn_append, ← htopo, ← State.pixelValuesIn_shiftEvents]
    simp [State.scanEvents, PinEvent.pixelValues]
  · rw [List.count_append]
    simp [State.scanEvents, List.count_eq_zero.2 s.fired.lat_notMem_shiftEvents]
  · rw [scanStepsIn_append, State.scanStepsIn_scanEvents]

end Sys2Proof.Machine
end

section
/-! PROOF. The scan record in the trace (40 R81): what the data lines carry at the rising edges of `CLK`. -/

namespace Sys2Proof.Machine

/-! ### Sampling a trace at the rising edges of the clock -/

theorem Pins.sampled_append (p : Pins) (es fs : List PinEvent) :
    p.sampled (es ++ fs) = p.sampled es ++ (p.replay es).sampled fs := by
  induction es generalizing p with
  | nil => rfl
  | cons e es ih => simp [Pins.sampled, ih]

/-- In a loop whose rounds start and end with the clock low, the samples are those of the rounds. -/
theorem Pins.sampled_flatMap {α : Type} {f : α → List PinEvent} {g : α → List (List Colour)}
    (round : ∀ (p : Pins) (a : α), p.clk = 0#1 → p.sampled (f a) = g a ∧ (p.replay (f a)).clk = 0#1) (l : List α) {p : Pins}
    (hp : p.clk = 0#1) : p.sampled (l.flatMap f) = l.flatMap g ∧ (p.replay (l.flatMap f)).clk = 0#1 := by
  induction l generalizing p with
  | nil => exact ⟨rfl, hp⟩
  | cons a l ih =>
    obtain ⟨hsamples, hlow⟩ := round p a hp
    obtain ⟨hsamples', hlow'⟩ := ih hlow
    rw [List.flatMap_cons, List.flatMap_cons, Pins.sampled_append, Pins.replay_append, hsamples, hsamples']
    exact ⟨rfl, hlow'⟩

/-- A clock pulse is sampled once, with what it presents. -/
theorem Pins.sampled_pulse (p : Pins) (d : List Colour) (hp : p.clk = 0#1) :
    p.sampled (pulseEvents d) = [d] ∧ (p.replay (pulseEvents d)).clk = 0#1 :=
  ⟨by simp [pulseEvents, Pins.sampled, Pins.apply, hp], rfl⟩

/-- The samples of a scan step are what its pulses present, in order. -/
theorem State.sampled_scanEvents (s : State) {p : Pins} (hp : p.clk = 0#1) : p.sampled s.scanEvents = s.scanRecord.shift := by
  have pass : ∀ (q : Pins) (n : Nat), q.clk = 0#1 → q.sampled (s.passEvents n) =
      (List.range s.topo.width).map (fun k => s.presented n k) ∧ (q.replay (s.passEvents n)).clk = 0#1 := by
    intro q n hq
    rw [List.map_eq_flatMap]
    exact Pins.sampled_flatMap (fun r k => r.sampled_pulse (s.presented n k)) _ hq
  have hrows := (Pins.sampled_flatMap pass (List.range s.topo.nPasses)
    (p := { p with blank := 1#1, addr := s.index, lat := 0#1 }) hp).1
  calc p.sampled s.scanEvents
    _ = Pins.sampled { p with blank := 1#1, addr := s.index, lat := 0#1 }
          ((List.range s.topo.nPasses).flatMap s.passEvents ++ [.lat 1#1, .lat 0#1, .blank 0#1]) := by
      simp [State.scanEvents, State.shiftEvents, Pins.sampled, Pins.apply]
    _ = s.scanRecord.shift := by
      rw [Pins.sampled_append, hrows]
      simp [Pins.sampled, State.scanRecord]

/-! ### The place of a sample -/

/-- Entry `p * w + k` of a table written row by row, rows of `w` entries. -/
theorem getElem?_rows {α : Type} (f : Nat → Nat → α) {n w p k : Nat} (hp : p < n) (hk : k < w) :
    ((List.range n).flatMap (fun p => (List.range w).map (f p)))[p * w + k]? = some (f p k) := by
  induction n with
  | zero => omega
  | succ n ih =>
    have hlen : ((List.range n).flatMap (fun p => (List.range w).map (f p))).length = n * w := by simp
    rw [List.range_succ, List.flatMap_append, List.flatMap_singleton]
    rcases Nat.lt_succ_iff_lt_or_eq.1 hp with hlt | rfl
    · have hin : p * w + k < n * w := by
        calc p * w + k < (p + 1) * w := by rw [Nat.succ_mul]; omega
          _ ≤ n * w := Nat.mul_le_mul_right _ hlt
      rw [List.getElem?_append_left (hlen ▸ hin), ih hlt]
    · rw [List.getElem?_append_right (by omega), hlen, Nat.add_sub_cancel_left]
      simp [hk]

theorem State.length_scanRecord_shift (s : State) : s.scanRecord.shift.length = s.topo.nPasses * s.topo.width := by
  simp [State.scanRecord]

/-- Sample `p * WIDTH + k` of chain `c` is the colour code of 41 R85 to R88. -/
theorem State.scanRecord_shift_getD (s : State) {p k c : Nat} (hp : p < s.topo.nPasses) (hk : k < s.topo.width)
    (hc : c < s.topo.nChains) : (s.scanRecord.shift.getD (p * s.topo.width + k) []).getD c 0#3 = s.lineValue p c k := by
  have hsample : s.scanRecord.shift[p * s.topo.width + k]? = some (s.presented p k) := getElem?_rows s.presented hp hk
  rw [List.getD_eq_getElem?_getD (i := p * s.topo.width + k), hsample]
  simp [State.presented, hc]

/-- The plane shown after the swap check: a swap exchanges it with the draw plane, which is the display plane then. -/
theorem State.fired_displaySel {s : State} (hw : s.topo.wf = true) : s.fired.displaySel =
    if (s.index + 1) % s.topo.rowsPerScan = 0 ∧ s.swapPending = 1#1 then s.drawSel else s.drawSel ^^^ 1#1 := by
  rw [← State.fired_index hw, State.displaySel]
  rcases State.fired_roles hw with ⟨hdo, hsel, -⟩ | ⟨hnot, hsel, -⟩
  · rw [if_pos hdo, hsel, BitVec.xor_assoc, BitVec.xor_self, BitVec.xor_zero]
  · rw [if_neg hnot, hsel]

/-- Settles O38: the samples of the appended events are the scan record of the state that a firing `TICK` leaves. -/
theorem scanRecordIsInTheTrace : Obligations.ScanRecordIsInTheTrace := by
  intro s hw hclk hpos hdue
  have htopo := State.fired_topo hw
  have hshift : s.pins.sampled s.fired.scanEvents = s.fired.scanRecord.shift := s.fired.sampled_scanEvents hclk
  refine ⟨s.fired, s.fired.scanEvents, exec_tick_firing hw hpos hdue, State.fired_trace hw, ?_, ?_, fun p k c hp hk hc => ?_⟩
  · rw [hshift, ← State.fired_displaySel hw, ← State.fired_index hw]
    rfl
  · rw [hshift, State.length_scanRecord_shift, htopo]
  · rw [hshift, ← htopo]
    rw [← htopo] at hp hk hc
    exact s.fired.scanRecord_shift_getD hp hk hc

end Sys2Proof.Machine
end

section
/-! PROOFS. The places of the pixels on the lanes (41 R90, R91): the index that carries a row, the pulse that carries a column, and the one lane
that carries each row. -/

namespace Sys2Proof

/-- The index at which lane `(p, c)` carries row `r` of its range (41 R91); `Topology.laneRow_eq_iff` ties it to 41 R86. -/
def Topology.indexOfRow (T : Topology) (p c r : Nat) : Nat :=
  if (T.lane p c).rowRev then T.rowsPerScan - 1 - (r - (T.lane p c).rowBase) else r - (T.lane p c).rowBase

/-- The pulse at which lane `(p, c)` carries column `x` (41 R91); `Topology.laneColumn_eq_iff` ties it to 41 R87. -/
def Topology.pulseOfColumn (T : Topology) (p c x : Nat) : Nat := if (T.lane p c).colRev then T.width - 1 - x else x

/-- The buffer rows that lane `(p, c)` carries (00_scope.md R7). -/
def Topology.laneRows (T : Topology) (p c : Nat) : Finset Nat :=
  Finset.Ico (T.lane p c).rowBase ((T.lane p c).rowBase + T.rowsPerScan)

section
variable {T : Topology} {p c : Nat}

theorem Topology.mem_laneRows {r : Nat} :
    r ∈ T.laneRows p c ↔ (T.lane p c).rowBase ≤ r ∧ r < (T.lane p c).rowBase + T.rowsPerScan :=
  Finset.mem_Ico

theorem Topology.laneRow_mem_laneRows {a : Nat} (ha : a < T.rowsPerScan) : T.laneRow p c a ∈ T.laneRows p c := by
  rw [Topology.mem_laneRows, Topology.laneRow]
  split <;> omega

theorem Topology.indexOfRow_lt {r : Nat} (hr : r ∈ T.laneRows p c) : T.indexOfRow p c r < T.rowsPerScan := by
  rw [Topology.mem_laneRows] at hr
  unfold Topology.indexOfRow
  split <;> omega

theorem Topology.pulseOfColumn_lt {x : Nat} (hx : x < T.width) : T.pulseOfColumn p c x < T.width := by
  unfold Topology.pulseOfColumn
  split <;> omega

theorem Topology.laneRow_eq_iff {r a : Nat} (hr : r ∈ T.laneRows p c) (ha : a < T.rowsPerScan) :
    T.laneRow p c a = r ↔ a = T.indexOfRow p c r := by
  rw [Topology.mem_laneRows] at hr
  unfold Topology.laneRow Topology.indexOfRow
  split <;> omega

theorem Topology.laneColumn_eq_iff {x k : Nat} (hx : x < T.width) (hk : k < T.width) :
    T.laneColumn p c k = x ↔ k = T.pulseOfColumn p c x := by
  unfold Topology.laneColumn Topology.pulseOfColumn
  split <;> omega
end

/-- Settles O31: a lane's row and column, forward or reversed, solved for the index and for the pulse. -/
theorem placeOfAPixel : Obligations.PlaceOfAPixel := by
  intro T r x p c _ _ _ hx hbase hend
  have hr : r ∈ T.laneRows p c := Topology.mem_laneRows.2 ⟨hbase, hend⟩
  exact ⟨fun a ha => Topology.laneRow_eq_iff hr ha, fun k hk => Topology.laneColumn_eq_iff hx hk⟩

/-! ### Each row is one lane's (41 R90) -/

/-- The places of the lanes. -/
def Topology.lanePlaces (T : Topology) : Finset (Nat × Nat) := Finset.range T.nPasses ×ˢ Finset.range T.nChains

theorem Topology.mem_lanePlaces {T : Topology} {a : Nat × Nat} : a ∈ T.lanePlaces ↔ a.1 < T.nPasses ∧ a.2 < T.nChains := by
  simp [Topology.lanePlaces]

section
variable {T : Topology} (f : T.Facts)
include f

theorem Topology.Facts.lt_height_of_mem_laneRows {r p c : Nat} (hp : p < T.nPasses) (hc : c < T.nChains)
    (hr : r ∈ T.laneRows p c) : r < T.height := by
  have hin := f.inside p hp c hc
  rw [Topology.mem_laneRows] at hr
  omega

theorem Topology.Facts.lane_unique {r p c p' c' : Nat} (hp : p < T.nPasses) (hc : c < T.nChains) (hp' : p' < T.nPasses)
    (hc' : c' < T.nChains) (hr : r ∈ T.laneRows p c) (hr' : r ∈ T.laneRows p' c') : (p, c) = (p', c') := by
  by_contra hne
  have hapart := f.disjoint p hp c hc p' hp' c' hc' hne
  rw [Topology.mem_laneRows] at hr hr'
  omega

/-- The lanes' rows are the buffer's: they lie in it, and being disjoint they are as many as it has (00_scope.md R7). -/
theorem Topology.Facts.biUnion_laneRows :
    T.lanePlaces.biUnion (fun a => T.laneRows a.1 a.2) = Finset.range T.height := by
  have hdisj : (T.lanePlaces : Set (Nat × Nat)).PairwiseDisjoint (fun a => T.laneRows a.1 a.2) := by
    intro a ha b hb hne
    obtain ⟨hp, hc⟩ := Topology.mem_lanePlaces.1 ha
    obtain ⟨hp', hc'⟩ := Topology.mem_lanePlaces.1 hb
    exact Finset.disjoint_left.2 fun r hr hr' => hne (f.lane_unique hp hc hp' hc' hr hr')
  refine Finset.eq_of_subset_of_card_le (fun r hr => ?_) (le_of_eq ?_)
  · obtain ⟨a, ha, hr⟩ := Finset.mem_biUnion.1 hr
    obtain ⟨hp, hc⟩ := Topology.mem_lanePlaces.1 ha
    exact Finset.mem_range.2 (f.lt_height_of_mem_laneRows hp hc hr)
  · rw [Finset.card_biUnion hdisj, Finset.card_range, f.height_eq]
    simp [Topology.laneRows, Topology.lanePlaces]
    ring

theorem Topology.Facts.exists_lane {r : Nat} (hr : r < T.height) :
    ∃ p < T.nPasses, ∃ c < T.nChains, r ∈ T.laneRows p c := by
  have hmem : r ∈ T.lanePlaces.biUnion (fun a => T.laneRows a.1 a.2) := f.biUnion_laneRows ▸ Finset.mem_range.2 hr
  obtain ⟨⟨p, c⟩, ha, hr⟩ := Finset.mem_biUnion.1 hmem
  obtain ⟨hp, hc⟩ := Topology.mem_lanePlaces.1 ha
  exact ⟨p, hp, c, hc, hr⟩
end

/-- Settles O30: the row is in exactly one lane's range, and `Topology.laneRow_eq_iff` and `Topology.laneColumn_eq_iff` give that lane's index
and pulse. -/
theorem everyPixelOncePerCycle : Obligations.EveryPixelOncePerCycle := by
  intro T r x hw hr hx
  have f := Topology.wf_facts hw
  obtain ⟨p, hp, c, hc, hmem⟩ := f.exists_lane hr
  have ha := Topology.indexOfRow_lt hmem
  have hk := Topology.pulseOfColumn_lt (p := p) (c := c) hx
  refine ⟨(T.indexOfRow p c r, p, c, T.pulseOfColumn p c x),
    ⟨ha, hp, hc, hk, (Topology.laneRow_eq_iff hmem ha).2 rfl, (Topology.laneColumn_eq_iff hx hk).2 rfl⟩, ?_⟩
  rintro ⟨a', p', c', k'⟩ ⟨ha', hp', hc', hk', hrow, hcol⟩
  dsimp only at ha' hp' hc' hk' hrow hcol
  have hmem' : r ∈ T.laneRows p' c' := hrow ▸ Topology.laneRow_mem_laneRows ha'
  cases f.lane_unique hp hc hp' hc' hmem hmem'
  rw [(Topology.laneRow_eq_iff hmem ha').1 hrow, (Topology.laneColumn_eq_iff hx hk').1 hcol]

end Sys2Proof
end

section
/-! PROOFS. What `SHIFTROW` presents (41 R85 to R89). -/

namespace Sys2Proof.Machine

/-- Settles O28: the events of the loops and the pins they leave; `d` is what the chains are presented, with 41 R86 and R87 written out. -/
theorem shiftrowPresentsTheRows : Obligations.ShiftrowPresentsTheRows := by
  intro s d hw hd
  have hpresented : d = s.presented := funext fun p => funext fun k => hd p k
  subst hpresented
  have hpins := State.shiftRows_pins hw
  have hrecord : s.shiftRows = { s with pass := 0, col := 0, pins := s.shiftRows.pins, trace := s.trace ++ s.shiftEvents } := by
    rw [State.shiftRows_eq]
    rfl
  rw [hpins] at hrecord
  rw [exec_effect (i := .shiftrow) hw trivial, effect, hrecord]
  rfl

/-- The events of `SHIFTROW` are the clock pulses of the scan record's samples, in order. -/
theorem State.shiftEvents_eq (s : State) : s.shiftEvents = .lat 0#1 :: s.scanRecord.shift.flatMap pulseEvents := by
  have hpass : s.passEvents = fun p => ((List.range s.topo.width).map (s.presented p)).flatMap pulseEvents :=
    funext fun p => (List.flatMap_map ..).symm
  rw [State.shiftEvents, hpass, State.scanRecord, List.flatMap_assoc]

/-- On a plane whose bytes all have low bits `c`, every chain carries `c` (41 R89). -/
theorem State.lineValue_of_solid {s : State} {c : Colour} (hw : s.topo.wf = true) (hi : s.index < s.topo.rowsPerScan)
    (hsolid : ∀ off < s.topo.planeSize, (s.memRead s.displaySel off).toNat % 8 = c.toNat) {p n k : Nat}
    (hp : p < s.topo.nPasses) (hn : n < s.topo.nChains) (hk : k < s.topo.width) : s.lineValue p n k = c := by
  have hoff := Topology.pixelOffset_lt (Topology.laneRow_lt (Topology.wf_facts hw) hp hn hi)
    (Topology.laneColumn_lt (p := p) (c := n) hk)
  refine BitVec.eq_of_toNat_eq ?_
  rw [State.lineValue, colourOf, BitVec.extractLsb'_toNat, Nat.shiftRight_zero]
  exact hsolid _ hoff

theorem State.mem_scanRecord_shift {s : State} {d : List Colour} :
    d ∈ s.scanRecord.shift ↔ ∃ p < s.topo.nPasses, ∃ k < s.topo.width, s.presented p k = d := by
  simp [State.scanRecord]

theorem State.scanRecord_shift_of_solid {s : State} {c : Colour} (hw : s.topo.wf = true) (hi : s.index < s.topo.rowsPerScan)
    (hsolid : ∀ off < s.topo.planeSize, (s.memRead s.displaySel off).toNat % 8 = c.toNat) :
    s.scanRecord.shift = List.replicate (s.topo.nPasses * s.topo.width) (List.replicate s.topo.nChains c) := by
  refine List.eq_replicate_iff.2 ⟨s.length_scanRecord_shift, fun d hd => ?_⟩
  obtain ⟨p, hp, k, hk, rfl⟩ := State.mem_scanRecord_shift.1 hd
  refine List.eq_replicate_iff.2 ⟨s.presented_length p k, fun v hv => ?_⟩
  obtain ⟨n, hn, rfl⟩ := List.mem_map.1 hv
  exact State.lineValue_of_solid hw hi hsolid hp (List.mem_range.1 hn) hk

/-- Settles O32: every sample of the scan record is `c` on every chain, so every pulse of `SHIFTROW` is the same three events. -/
theorem solidFillIsShifted : Obligations.SolidFillIsShifted := by
  intro s c hw hi hsolid
  refine ⟨s.shiftRows, exec_effect (i := .shiftrow) hw trivial, ?_⟩
  have htrace : s.shiftRows.trace = s.trace ++ s.shiftEvents := congrArg State.trace s.shiftRows_eq
  rw [htrace, State.shiftEvents_eq, State.scanRecord_shift_of_solid hw hi hsolid, List.flatMap_replicate]
  rfl

end Sys2Proof.Machine
end

section
/-! PROOF. The reference sink of 41 R93: what its shift registers, its output stage and its lights hold after a scan step. -/

namespace Sys2Proof.Machine

/-! ### One shift register -/

/-- A register after values have been shifted in: the latest first, and what was there before pushed on and off its end. -/
theorem foldl_shiftIn (vs cells : List Colour) :
    vs.foldl (flip shiftIn) cells = (vs.reverse ++ cells).take cells.length := by
  induction vs generalizing cells with
  | nil => simp
  | cons v vs ih =>
    have hone : shiftIn v cells = (v :: cells).take cells.length := List.dropLast_eq_take
    have hlen : (shiftIn v cells).length = cells.length := by simp [shiftIn]
    rw [List.foldl_cons, ih, flip, hlen, hone, List.take_append, List.take_take, List.reverse_cons, List.append_assoc,
      List.take_append, Nat.min_eq_left (Nat.sub_le ..)]
    rfl

/-- Shifting in as many values as a register has cells fills it with them, the latest first. -/
theorem foldl_shiftIn_full {vs cells : List Colour} (h : vs.length = cells.length) :
    vs.foldl (flip shiftIn) cells = vs.reverse := by
  rw [foldl_shiftIn, ← h, ← List.length_reverse, List.take_left]

/-! ### The sink's registers, chain by chain -/

theorem Sink.run_append (k : Sink) (es fs : List PinEvent) : k.run (es ++ fs) = (k.run es).run fs :=
  List.foldl_append

theorem Sink.on_pins (k : Sink) (e : PinEvent) : (k.on e).pins = k.pins.apply e := by
  cases e with
  | clk v | lat v => unfold Sink.on; dsimp only; split <;> rfl
  | blank v | addr a | data d => rfl

/-- The sink sees the pins. -/
theorem Sink.run_pins (k : Sink) (es : List PinEvent) : (k.run es).pins = k.pins.replay es := by
  induction es generalizing k with
  | nil => rfl
  | cons e es ih => exact (ih (k.on e)).trans (congrArg (Pins.replay · es) (k.on_pins e))

/-- The registers of all chains after values have been shifted in, one per chain at a time; `Sink.run_pulses_sr` ties it to the sink. -/
def shiftInAll (sr ds : List (List Colour)) : List (List Colour) := ds.foldl (fun sr d => List.zipWith shiftIn d sr) sr

/-- Each clock pulse shifts what it presents into the registers. -/
theorem Sink.run_pulses_sr (k : Sink) (ds : List (List Colour)) :
    (k.run (ds.flatMap pulseEvents)).sr = shiftInAll k.sr ds := by
  induction ds generalizing k with
  | nil => rfl
  | cons d ds ih =>
    rw [List.flatMap_cons, Sink.run_append, ih]
    rfl

/-- The register of one chain sees what is presented on that chain alone. -/
theorem getElem?_shiftInAll {sr ds : List (List Colour)} {c : Nat} {cells : List Colour}
    (hsr : sr[c]? = some cells) (hds : ∀ d ∈ ds, c < d.length) :
    (shiftInAll sr ds)[c]? = some ((ds.map (·.getD c 0#3)).foldl (flip shiftIn) cells) := by
  induction ds generalizing sr cells with
  | nil => exact hsr
  | cons d ds ih =>
    obtain ⟨hd, hds⟩ := List.forall_mem_cons.1 hds
    refine ih ?_ hds
    simp [List.getElem?_zipWith, hsr, hd, flip]

/-! ### A scan step (41 R93) -/

/-- At the end of a scan step the output stage holds the registers as the clock pulses left them, and it is lit at the row address. -/
theorem Sink.run_scanEvents (k : Sink) (s : State) :
    (k.run s.scanEvents).out = shiftInAll k.sr s.scanRecord.shift ∧
    (k.run s.scanEvents).lit = some ((k.run s.scanEvents).pins.addr, (k.run s.scanEvents).out) := by
  have hsplit : s.scanEvents = [.blank 1#1, .addr s.index, .lat 0#1] ++ s.scanRecord.shift.flatMap pulseEvents ++
      [.lat 1#1, .lat 0#1, .blank 0#1] := by
    rw [State.scanEvents, State.shiftEvents_eq]
    rfl
  rw [hsplit, Sink.run_append, Sink.run_append]
  exact ⟨Sink.run_pulses_sr .., rfl⟩

theorem Sink.exists_cells {k : Sink} {T : Topology} (hk : k.fits T = true) {c : Nat} (hc : c < T.nChains) :
    ∃ cells, k.sr[c]? = some cells ∧ cells.length = T.nPasses * T.width := by
  simp only [Sink.fits, Bool.and_eq_true, beq_iff_eq, List.all_eq_true] at hk
  obtain ⟨hchains, hcells⟩ := hk
  have hlt : c < k.sr.length := hchains ▸ hc
  exact ⟨k.sr[c], List.getElem?_eq_getElem hlt, hcells _ (List.getElem_mem hlt)⟩

/-- What chain `c` carries at the clock pulses of a scan step, in order (40 R81). -/
def State.chainSamples (s : State) (c : Nat) : List Colour := s.scanRecord.shift.map (·.getD c 0#3)

@[simp] theorem State.length_chainSamples (s : State) (c : Nat) : (s.chainSamples c).length = s.topo.nPasses * s.topo.width := by
  rw [State.chainSamples, List.length_map, State.length_scanRecord_shift]

theorem State.chainSamples_getD (s : State) {p c j : Nat} (hp : p < s.topo.nPasses) (hc : c < s.topo.nChains)
    (hj : j < s.topo.width) : (s.chainSamples c).getD (p * s.topo.width + j) 0#3 = s.lineValue p c j := by
  rw [← s.scanRecord_shift_getD hp hj hc]
  exact List.getD_map s.scanRecord.shift [] (·.getD c 0#3)

/-- After a scan step the output stage of a chain holds the samples of that chain, the last one in cell 0. -/
theorem Sink.run_scanEvents_out {k : Sink} {s : State} (hk : k.fits s.topo = true) {c : Nat} (hc : c < s.topo.nChains) :
    (k.run s.scanEvents).out.getD c [] = (s.chainSamples c).reverse := by
  obtain ⟨cells, hcells, hlen⟩ := Sink.exists_cells hk hc
  have hwide : ∀ d ∈ s.scanRecord.shift, c < d.length := by
    intro d hd
    obtain ⟨p, -, j, -, rfl⟩ := State.mem_scanRecord_shift.1 hd
    rwa [State.presented_length]
  have hfull : (s.chainSamples c).length = cells.length := (s.length_chainSamples c).trans hlen.symm
  have hout : (k.run s.scanEvents).out[c]? = some (s.chainSamples c).reverse := by
    rw [(k.run_scanEvents s).1, getElem?_shiftInAll hcells hwide, ← State.chainSamples, foldl_shiftIn_full hfull]
  rw [List.getD_eq_getElem?_getD, hout, Option.getD_some]

/-- The value of pulse `m` stands in cell `N_PASSES * WIDTH - 1 - m` (41 R93). -/
theorem Sink.run_scanEvents_cell {k : Sink} {s : State} (hk : k.fits s.topo = true) {p c j : Nat} (hp : p < s.topo.nPasses)
    (hc : c < s.topo.nChains) (hj : j < s.topo.width) :
    ((k.run s.scanEvents).out.getD c []).getD (s.topo.nPasses * s.topo.width - 1 - (p * s.topo.width + j)) 0#3 =
      s.lineValue p c j := by
  have hm : p * s.topo.width + j < s.topo.nPasses * s.topo.width := by
    rw [Nat.mul_comm p]
    exact Nat.mul_add_lt_mul_of_lt_of_lt hp hj
  have hcell : s.topo.nPasses * s.topo.width - 1 - (p * s.topo.width + j) < (s.chainSamples c).length := by
    rw [s.length_chainSamples]
    omega
  rw [Sink.run_scanEvents_out hk hc, List.getD_reverse _ hcell, s.length_chainSamples, Nat.sub_sub_self (by omega)]
  exact s.chainSamples_getD hp hc hj

/-- Settles O39: the output stage, cell by cell, and the lights after the events of the scan step, seen from the state that a firing `TICK` leaves. -/
theorem sinkHoldsThePulses : Obligations.SinkHoldsThePulses := by
  intro s k hw hk hpos hdue
  have htopo := State.fired_topo hw
  have f := Topology.wf_facts hw
  refine ⟨s.fired, s.fired.scanEvents, exec_tick_firing hw hpos hdue, State.fired_trace hw, fun p c j hp hc hj => ?_, ?_⟩
  · rw [← htopo] at hk hp hc hj ⊢
    exact Sink.run_scanEvents_cell hk hp hc hj
  · have hpins := s.fired.replay_scanEvents k.pins (htopo ▸ f.width_pos) (htopo ▸ f.passes_pos)
    rw [(k.run_scanEvents s.fired).2, Sink.run_pins, hpins, ← State.fired_index hw]
    rfl

end Sys2Proof.Machine
end

section
/-! PROOFS. The three operations of the arbiter, one by one (42 R100 to R102), and `TICK` by the branches of 44 R121. -/

namespace Sys2Proof.Machine

/-! ### TICK, an equation per branch (44 R121) -/

section
variable {s : State}

theorem State.tickOnce_disabled (hoff : s.interval = 0) : s.tickOnce = s := if_pos hoff

theorem State.tickOnce_counting (hon : s.interval ≠ 0) (hlt : s.tickCnt + 1 < s.interval) :
    s.tickOnce = s.setTickCnt (s.tickCnt + 1) := by
  rw [State.tickOnce, if_neg hon, if_neg (Nat.not_le_of_lt hlt)]

theorem State.tickOnce_firing (hon : s.interval ≠ 0) (hdue : s.interval ≤ s.tickCnt + 1) : s.tickOnce = s.fired := by
  rw [State.tickOnce, if_neg hon, if_pos hdue, State.fired]
end

theorem State.tickOnce_cases (s : State) :
    (s.interval = 0 ∧ s.tickOnce = s) ∨
    (s.interval ≠ 0 ∧ s.tickCnt + 1 < s.interval ∧ s.tickOnce = s.setTickCnt (s.tickCnt + 1)) ∨
    (s.interval ≠ 0 ∧ s.interval ≤ s.tickCnt + 1 ∧ s.tickOnce = s.fired) := by
  by_cases hoff : s.interval = 0
  · exact .inl ⟨hoff, State.tickOnce_disabled hoff⟩
  by_cases hdue : s.interval ≤ s.tickCnt + 1
  · exact .inr (.inr ⟨hoff, hdue, State.tickOnce_firing hoff hdue⟩)
  · have hlt := Nat.lt_of_not_le hdue
    exact .inr (.inl ⟨hoff, hlt, State.tickOnce_counting hoff hlt⟩)

/-! ### SWAPREQ (42 R100) -/

/-- Settles O18: one write of the flag, which is the identity where the flag is set; a disabled `TICK` is the identity. -/
theorem swapreqSetsTheFlag : Obligations.SwapreqSetsTheFlag := by
  intro s hw
  have hreq : exec .swapreq s = .next { s with swapPending := 1#1 } := exec_effect hw trivial
  refine ⟨hreq, fun hset => ?_, fun hoff => ?_⟩
  · rw [hreq, ← hset]
  · have htick := exec_effect (i := .tick) (s := s.requestSwap) hw trivial
    rw [effect, State.tickOnce_disabled (s := s.requestSwap) hoff] at htick
    exact htick

/-! ### DRAWBUF (42 R101) -/

/-- Exchanging the roles complements bit 0 of the answer. -/
theorem setWidth_xor_one (b : Bit) : ((b ^^^ 1#1).setWidth 32 : PortBits) = b.setWidth 32 ^^^ 1#32 := by
  revert b
  decide

/-- Settles O19: the answer is a function of `draw_sel` alone, and the exchange of the roles complements its bit 0. -/
theorem drawbufAnswersTheDrawPlane : Obligations.DrawbufAnswersTheDrawPlane := by
  intro s hw
  refine ⟨s.drawSel.setWidth 32, BitVec.toNat_setWidth_of_le (by decide), exec_drawbuf hw, fun t ht => ⟨fun hd => ?_, fun hd => ?_⟩⟩
  · rw [exec_drawbuf ht, ← hd]
    rfl
  · rw [exec_drawbuf ht, ← setWidth_xor_one, ← hd]
    rfl

/-! ### SWAPCHK (42 R102) -/

/-- Settles O20: the two cases of the swap check. -/
theorem swapchkTruthTable : Obligations.SwapchkTruthTable := by
  intro s hw
  have hchk : exec .swapchk s = .next s.swapCheck := exec_effect hw trivial
  rw [hchk]
  rcases s.swapCheck_cases with ⟨h0, h1, hswap⟩ | ⟨hnot, hsame⟩
  · refine ⟨fun _ _ => congrArg _ hswap, fun _ hp => ?_, fun hne => absurd h0 hne⟩
    exact absurd (h1.symm.trans hp) (by decide)
  · exact ⟨fun h0 h1 => absurd ⟨h0, h1⟩ hnot, fun _ _ => congrArg _ hsame, fun _ => congrArg _ hsame⟩

end Sys2Proof.Machine
end

section
/-! PROOF. What a `TICK` shows depends on the display plane alone (42 R103, 20_memory.md R33). -/

namespace Sys2Proof.Machine

/-- Two states that show the same: one topology, one index, the same roles, and the same bytes of the display plane. -/
structure State.SameView (s t : State) : Prop where
  topo : t.topo = s.topo
  index : t.index = s.index
  drawSel : t.drawSel = s.drawSel
  display : samePlane s t s.displaySel

section
variable {s t : State} (h : s.SameView t)
include h

theorem State.SameView.presented (p k : Nat) : t.presented p k = s.presented p k := by
  have hsel : t.displaySel = s.displaySel := congrArg (· ^^^ 1#1) h.drawSel
  simp only [State.presented, State.lineValue, h.topo, h.index, hsel, h.display _]

theorem State.SameView.scanEvents : t.scanEvents = s.scanEvents := by
  rw [State.scanEvents_eq h.topo, State.scanEvents_eq rfl]
  simp only [h.index, h.presented]

theorem State.SameView.restPins : t.restPins = s.restPins := by
  simp only [State.restPins, State.lastPresented, h.topo, h.index, h.presented]
end

/-- A scan step writes no plane (20_memory.md R33). -/
theorem State.fired_memRead {s : State} (hw : s.topo.wf = true) (sel : Bit) (off : Nat) :
    s.fired.memRead sel off = s.memRead sel off := by
  have hframe := State.fired_frame hw
  exact State.memRead_congr (State.fired_topo hw) ((congrArg State.plane0 hframe).trans rfl)
    ((congrArg State.plane1 hframe).trans rfl) sel off

/-- A firing `TICK` with no swap due keeps the view of two states the same. -/
theorem State.SameView.fired {s t : State} (h : s.SameView t) (hw : s.topo.wf = true) (hpend : t.swapPending = s.swapPending)
    (hno : ¬((s.index + 1) % s.topo.rowsPerScan = 0 ∧ s.swapPending = 1#1)) : s.fired.SameView t.fired := by
  have hw' : t.topo.wf = true := by rw [h.topo, hw]
  have hidx : t.fired.index = s.fired.index := by rw [State.fired_index hw', State.fired_index hw, h.index, h.topo]
  rw [← State.fired_index hw] at hno
  have hkeep : s.fired.drawSel = s.drawSel := ((State.fired_roles hw).resolve_left fun hd => hno hd.1).2.1
  have hkeep' : t.fired.drawSel = t.drawSel :=
    ((State.fired_roles hw').resolve_left fun hd => hno (by rw [← hidx, ← hpend]; exact hd.1)).2.1
  refine ⟨?_, hidx, ?_, fun off => ?_⟩
  · rw [State.fired_topo hw', State.fired_topo hw, h.topo]
  · rw [hkeep', hkeep, h.drawSel]
  · rw [State.fired_memRead hw', State.fired_memRead hw, State.displaySel, hkeep]
    exact h.display off

/-- Settles O44: the two states take the same branch of `TICK`, and in the firing one their scan steps have the same view. -/
theorem drawPlaneDoesNotShow : Obligations.DrawPlaneDoesNotShow := by
  intro s s' t t' hs hsame hno h h'
  obtain ⟨hw, -, rfl⟩ := (exec_next_iff ..).1 h
  obtain ⟨hw', -, rfl⟩ := (exec_next_iff ..).1 h'
  have hint : s'.interval = s.interval := by rw [hs]
  have hcnt : s'.tickCnt = s.tickCnt := by rw [hs]
  have htr : s'.trace = s.trace := by rw [hs]
  simp only [effect]
  rcases s.tickOnce_cases with ⟨hoff, he⟩ | ⟨hon, hlt, he⟩ | ⟨hon, hdue, he⟩
  · rw [he, State.tickOnce_disabled (hint.trans hoff), hs]
    exact ⟨rfl, rfl, rfl⟩
  · rw [← hint] at hon
    rw [← hint, ← hcnt] at hlt
    rw [he, State.tickOnce_counting hon hlt, hs]
    exact ⟨rfl, rfl, rfl⟩
  · have view : s.SameView s' := ⟨by rw [hs], by rw [hs], by rw [hs], hsame⟩
    have fired := view.fired hw (by rw [hs]) hno
    rw [← hint] at hon
    rw [← hint, ← hcnt] at hdue
    rw [he, State.tickOnce_firing hon hdue, State.fired_pins hw, State.fired_pins hw', State.fired_trace hw,
      State.fired_trace hw', fired.restPins, fired.scanEvents, fired.index, htr]
    exact ⟨rfl, rfl, rfl⟩

end Sys2Proof.Machine
end

section
/-! SUPPORT. Runs: what every step keeps, every run keeps; and everything a step without `rst` can do, with the move it takes. -/

namespace Sys2Proof.Machine

/-! ### Runs -/

section
variable {M : Host.Core} {k : Nat} {s t : M.State}

theorem coreRun_succ {u : M.State} (h : M.step s = .next u) : M.run (k + 1) s = M.run k u := by
  simp only [Host.Core.run, h]

theorem exists_step_of_coreRun_succ (h : M.run (k + 1) s = .next t) : ∃ u, M.step s = .next u ∧ M.run k u = .next t := by
  rw [Host.Core.run] at h
  split at h
  · next u hu => exact ⟨u, hu, h⟩
  · cases h
  · cases h

theorem coreRun_one : M.run 1 s = M.step s := by
  rw [Host.Core.run]
  cases M.step s <;> rfl
end

/-- A run goes on from the state its first step leaves. -/
theorem runSteps_succ {s u : State} (h : step s = .next u) (k : Nat) : runSteps (k + 1) s = runSteps k u :=
  coreRun_succ (M := Sys2Proof.core) h

theorem exists_step_of_runSteps_succ {k : Nat} {s t : State} (h : runSteps (k + 1) s = .next t) :
    ∃ u, step s = .next u ∧ runSteps k u = .next t :=
  exists_step_of_coreRun_succ (M := Sys2Proof.core) h

/-- A run's last step. -/
theorem runSteps_succ_last {k : Nat} {s t : State} (h : runSteps k s = .next t) : runSteps (k + 1) s = step t := by
  induction k generalizing s with
  | zero =>
    cases h
    exact coreRun_one (M := Sys2Proof.core)
  | succ k ih =>
    obtain ⟨u, hu, hrun⟩ := exists_step_of_runSteps_succ h
    rw [runSteps_succ hu]
    exact ih hrun

/-- What every step keeps, every run keeps. -/
theorem runSteps_keeps {P : State → Prop} (keeps : ∀ u v, P u → step u = .next v → P v) {k : Nat} {s t : State} (hs : P s)
    (hrun : runSteps k s = .next t) : P t := by
  induction k generalizing s with
  | zero =>
    cases hrun
    exact hs
  | succ k ih =>
    obtain ⟨u, hu, hrun⟩ := exists_step_of_runSteps_succ hrun
    exact ih (keeps s u hs hu) hrun

/-! ### A step without `rst` -/

/-- The move is the operation (30_encoding.md R51, R56). -/
def Input.carries : Input → Instr → Prop
  | .command w, i => decodeCmd w = .operation i
  | .tick level, i => decodeEvt level = .operation i
  | .reset, _ => False

theorem Input.context_of_carries {m : Input} {i : Instr} (h : m.carries i) : i.context = .mainLoop ∨ i = .tick := by
  cases m with
  | command w => exact .inl (decodeCmd_context h)
  | tick level => exact .inr (decodeEvt_operation h)
  | reset => exact h.elim

theorem Input.draws_of_carries {m : Input} {x y : Nat} {c : Byte} (h : m.carries (.setpix x y c)) : m.draws = true := by
  cases m with
  | command w =>
    rcases decodeCmd_cases w with ⟨hop, -⟩ | ⟨-, hd⟩ | ⟨-, hd⟩ | ⟨-, hd⟩ | ⟨-, hd⟩
    case inl => exact beq_iff_eq.2 hop
    all_goals cases hd.symm.trans h
  | tick level => cases decodeEvt_operation h
  | reset => exact h.elim

/-- `SWAPREQ` has one word (30_encoding.md R53). -/
theorem Input.eq_of_carries_swapreq {m : Input} (h : m.carries .swapreq) : m = .command 0x20000000#32 := by
  cases m with
  | command w => exact congrArg Input.command (PortWord.cmd.inj (encode_decodeCmd h).2).symm
  | tick level => cases decodeEvt_operation h
  | reset => exact h.elim

theorem decodeUop_context {p : BitVec 3} {i : Instr} (h : decodeUop p = .operation i) : i.context = .interrupt := by
  rcases decodeUop_operation h with ⟨-, rfl⟩ | ⟨-, rfl⟩ | ⟨-, rfl⟩ | ⟨-, rfl⟩ | ⟨-, rfl⟩ | ⟨-, rfl⟩ | ⟨-, rfl⟩ <;> rfl

/-- Everything a step can do where no `rst` is to come: nothing; the micro-operation at the phase; or, between scan steps, to take the
next move, which is lost or is an operation that runs. `step_moves` is the same without the move taken. -/
theorem step_takes {s t : State} (hst : step s = .next t) (hr : noReset s.inputs = true) : s.topo.wf = true ∧
    (t = s ∨ (∃ i, decodeUop s.phase = .operation i ∧ t = effect i (s.setPhase (s.phase + 1#3))) ∨
      ∃ m rest, s.inputs = m :: rest ∧ s.phase = 0#3 ∧
        (t = { s with inputs := rest } ∨ ∃ i, m.carries i ∧ t = effect i { s with inputs := rest })) := by
  obtain ⟨hw, hcases⟩ := step_cases hst
  refine ⟨hw, ?_⟩
  rcases hcases with ⟨rest, hin, -⟩ | ⟨-, -, rfl⟩ | ⟨hp, hrun⟩ | ⟨w, rest, hin, hp, hrun⟩ | ⟨l, rest, hin, hp, hrun⟩
  · rw [hin] at hr
    cases hr
  · exact .inl rfl
  · rcases runWord_next hrun with ⟨i, hd, he⟩ | ⟨why, hd, -⟩
    · obtain ⟨-, -, rfl⟩ := (exec_next_iff ..).1 he
      exact .inr (.inl ⟨i, hd, rfl⟩)
    · exact absurd hd (decodeUop_ne_rejected hp why)
  · refine .inr (.inr ⟨_, rest, hin, hp, ?_⟩)
    rcases runWord_next hrun with ⟨i, hd, he⟩ | ⟨-, -, rfl⟩
    · obtain ⟨-, -, rfl⟩ := (exec_next_iff ..).1 he
      exact .inr ⟨i, hd, rfl⟩
    · exact .inl rfl
  · refine .inr (.inr ⟨_, rest, hin, hp, ?_⟩)
    rcases runWord_next hrun with ⟨i, hd, he⟩ | ⟨-, -, rfl⟩
    · obtain ⟨-, -, rfl⟩ := (exec_next_iff ..).1 he
      exact .inr ⟨i, hd, rfl⟩
    · exact .inl rfl

/-! ### The moves to come -/

/-- No operation takes a move: `State.fetch` does. -/
theorem effect_inputs (i : Instr) {s : State} (hw : s.topo.wf = true) : (effect i s).inputs = s.inputs := by
  cases i with
  | setpix x y c => exact State.memWrite_inputs ..
  | swapchk => exact s.swapCheck_inputs
  | shiftrow =>
    rw [effect, State.shiftRows_eq]
    rfl
  | tick =>
    rcases s.tickOnce_cases with ⟨-, he⟩ | ⟨-, -, he⟩ | ⟨-, -, he⟩ <;> rw [effect, he]
    · rfl
    · exact (congrArg State.inputs (State.fired_frame hw)).trans rfl
  | _ => rfl

theorem noReset_of_suffix {is js : List Input} (h : js <:+ is) (hr : noReset is = true) : noReset js = true :=
  List.all_eq_true.2 fun m hm => List.all_eq_true.1 hr m (h.subset hm)

/-! ### The planes (20_memory.md R33) -/

theorem effect_memRead {i : Instr} (hi : ∀ x y c, i ≠ .setpix x y c) {s : State} (hw : s.topo.wf = true) (sel : Bit) (off : Nat) :
    (effect i s).memRead sel off = s.memRead sel off := by
  cases i with
  | setpix x y c => exact absurd rfl (hi x y c)
  | swapchk => exact State.memRead_congr s.swapCheck_topo s.swapCheck_plane0 s.swapCheck_plane1 sel off
  | shiftrow =>
    rw [effect, State.shiftRows_eq]
    rfl
  | tick =>
    rcases s.tickOnce_cases with ⟨-, he⟩ | ⟨-, -, he⟩ | ⟨-, -, he⟩ <;> rw [effect, he]
    · rfl
    · exact State.fired_memRead hw sel off
  | _ => rfl

/-- No operation writes the plane that is the display plane when it starts: `SETPIX` stores in the other one (43 R110). -/
theorem effect_memRead_display (i : Instr) {s : State} (hw : s.topo.wf = true) (off : Nat) :
    (effect i s).memRead s.displaySel off = s.memRead s.displaySel off := by
  cases i with
  | setpix x y c => exact s.memRead_memWrite_other _ _ _ (.inl s.displaySel_ne_drawSel)
  | _ => exact effect_memRead (fun _ _ _ h => by cases h) hw _ off

/-- The moves `used` were taken between `s` and `t`; if none draws, no byte of a plane has changed. -/
def State.Took (s t : State) (used : List Input) : Prop :=
  s.inputs = used ++ t.inputs ∧ (noDrawing used = true → ∀ sel, samePlane s t sel)

theorem State.Took.suffix {s t : State} {used : List Input} (h : s.Took t used) : t.inputs <:+ s.inputs := ⟨used, h.1.symm⟩

theorem State.Took.trans {s t u : State} {used more : List Input} (h : s.Took t used) (h' : t.Took u more) :
    s.Took u (used ++ more) := by
  obtain ⟨hin, hsame⟩ := h
  obtain ⟨hin', hsame'⟩ := h'
  refine ⟨by rw [hin, hin', List.append_assoc], fun hno sel off => ?_⟩
  rw [noDrawing, List.all_append, Bool.and_eq_true] at hno
  rw [hsame' hno.2, hsame hno.1]

/-- A step takes at most one move, keeps both planes if that does not draw, and keeps the display plane in any case. -/
theorem step_took {s t : State} (hst : step s = .next t) (hr : noReset s.inputs = true) :
    (∃ used, s.Took t used) ∧ samePlane s t s.displaySel := by
  obtain ⟨hw, rfl | ⟨i, hd, rfl⟩ | ⟨m, rest, hin, -, rfl | ⟨i, hm, rfl⟩⟩⟩ := step_takes hst hr
  · exact ⟨⟨[], rfl, fun _ _ _ => rfl⟩, fun _ => rfl⟩
  · have hi : ∀ x y c, i ≠ .setpix x y c := by
      rintro x y c rfl
      cases decodeUop_context hd
    have hsame : ∀ sel, samePlane s (effect i (s.setPhase (s.phase + 1#3))) sel :=
      fun sel => effect_memRead (s := s.setPhase (s.phase + 1#3)) hi hw sel
    exact ⟨⟨[], (effect_inputs i (s := s.setPhase (s.phase + 1#3)) hw).symm, fun _ => hsame⟩, hsame s.displaySel⟩
  · exact ⟨⟨[m], hin, fun _ _ _ => rfl⟩, fun _ => rfl⟩
  · refine ⟨⟨[m], ?_, fun hno sel off => ?_⟩, effect_memRead_display i (s := { s with inputs := rest }) hw⟩
    · rw [effect_inputs i (s := { s with inputs := rest }) hw]
      exact hin
    · have hi : ∀ x y c, i ≠ .setpix x y c := by
        rintro x y c rfl
        simp [noDrawing, Input.draws_of_carries hm] at hno
      exact effect_memRead (s := { s with inputs := rest }) hi hw sel off

end Sys2Proof.Machine
end

section
/-! PROOFS. The roles of the planes over whole runs (42 R104 to R107). -/

namespace Sys2Proof.Machine

/-! ### No request, no swap (42 R106) -/

/-- With no swap pending no operation but `SWAPREQ` changes the roles or the flag. -/
theorem effect_roles {i : Instr} (hi : i ≠ .swapreq) {s : State} (hw : s.topo.wf = true) (hidle : s.swapPending = 0#1) :
    (effect i s).drawSel = s.drawSel ∧ (effect i s).swapPending = 0#1 := by
  have hnot : ∀ P : Prop, ¬(P ∧ s.swapPending = 1#1) := fun P h => absurd (hidle.symm.trans h.2) (by decide)
  cases i with
  | swapreq => exact absurd rfl hi
  | setpix x y c => exact ⟨State.memWrite_drawSel .., (State.memWrite_swapPending ..).trans hidle⟩
  | swapchk =>
    have hsame : s.swapCheck = s := (s.swapCheck_cases.resolve_left fun h => hnot _ ⟨h.1, h.2.1⟩).2
    rw [effect, hsame]
    exact ⟨rfl, hidle⟩
  | shiftrow =>
    rw [effect, State.shiftRows_eq]
    exact ⟨rfl, hidle⟩
  | tick =>
    rcases s.tickOnce_cases with ⟨-, he⟩ | ⟨-, -, he⟩ | ⟨-, -, he⟩ <;> rw [effect, he]
    · exact ⟨rfl, hidle⟩
    · exact ⟨rfl, hidle⟩
    · obtain ⟨-, hdraw, hpend⟩ := (State.fired_roles hw).resolve_left fun h => hnot _ h.1
      exact ⟨hdraw, hpend.trans hidle⟩
  | _ => exact ⟨rfl, hidle⟩

/-- A step to which no request comes keeps the roles and the clear flag. -/
theorem step_roles {s t : State} (hst : step s = .next t) (hr : noReset s.inputs = true)
    (hreq : .command 0x20000000#32 ∉ s.inputs) (hidle : s.swapPending = 0#1) : t.drawSel = s.drawSel ∧ t.swapPending = 0#1 := by
  obtain ⟨hw, rfl | ⟨i, hd, rfl⟩ | ⟨m, rest, hin, -, rfl | ⟨i, hm, rfl⟩⟩⟩ := step_takes hst hr
  · exact ⟨rfl, hidle⟩
  · have hi : i ≠ .swapreq := by
      rintro rfl
      cases decodeUop_context hd
    exact effect_roles (s := s.setPhase (s.phase + 1#3)) hi hw hidle
  · exact ⟨rfl, hidle⟩
  · have hi : i ≠ .swapreq := by
      rintro rfl
      rw [hin, Input.eq_of_carries_swapreq hm] at hreq
      exact hreq List.mem_cons_self
    exact effect_roles (s := { s with inputs := rest }) hi hw hidle

/-- Settles O51: the roles, the clear flag, and that no `rst` and no request is to come, are kept together. -/
theorem noRequestNoSwap : Obligations.NoRequestNoSwap := by
  intro k s t hidle hr hreq hrun
  have hreq' : .command 0x20000000#32 ∉ s.inputs := fun hmem => hreq _ hmem rfl
  refine (runSteps_keeps (P := fun u => u.inputs <:+ s.inputs ∧ u.drawSel = s.drawSel ∧ u.swapPending = 0#1) ?_
    ⟨List.suffix_rfl, rfl, hidle⟩ hrun).2
  rintro u v ⟨hsuf, hdraw, hpend⟩ hst
  have hru := noReset_of_suffix hsuf hr
  obtain ⟨⟨used, htook⟩, -⟩ := step_took hst hru
  obtain ⟨hdraw', hpend'⟩ := step_roles hst hru (fun hmem => hreq' (hsuf.subset hmem)) hpend
  exact ⟨htook.suffix.trans hsuf, hdraw'.trans hdraw, hpend'⟩

/-! ### Tear-free within a cycle (42 R104) -/

/-- What one move between scan steps does to the index, the count of scan steps and the roles: none changes; or one scan step is made,
and the roles are kept unless the index wraps. -/
structure State.MovesOn (s t : State) : Prop where
  topo : t.topo = s.topo
  phase : t.phase = 0#3
  scan : (s.SameCount t ∧ t.drawSel = s.drawSel) ∨
    (t.index = (s.index + 1) % s.topo.rowsPerScan ∧ scanStepsIn t.trace = scanStepsIn s.trace + 1 ∧
      (t.index ≠ 0 → t.drawSel = s.drawSel))

theorem State.MovesOn.idle {s : State} (hp : s.phase = 0#3) (rest : List Input) : s.MovesOn { s with inputs := rest } :=
  ⟨rfl, hp, .inl ⟨⟨rfl, rfl, rfl⟩, rfl⟩⟩

theorem effect_mainLoop_movesOn {i : Instr} (hi : i.context = .mainLoop) {s : State} (hp : s.phase = 0#3) :
    s.MovesOn (effect i s) := by
  have hcount : movesCount i = false ∧ (effect i s).drawSel = s.drawSel := by
    cases i with
    | setpix x y c => exact ⟨rfl, State.memWrite_drawSel ..⟩
    | swapreq | drawbuf | regper => exact ⟨rfl, rfl⟩
    | _ => cases hi
  have hne : i ≠ .tick := by rintro rfl; cases hi
  have hsame := effect_sameCount hcount.1 s
  exact ⟨hsame.topo, (effect_phase hne s).trans hp, .inl ⟨hsame, hcount.2⟩⟩

theorem State.fired_movesOn {s : State} (hw : s.topo.wf = true) : s.MovesOn s.fired where
  topo := State.fired_topo hw
  phase := congrArg State.phase (State.fired_frame hw)
  scan := by
    refine .inr ⟨State.fired_index hw, ?_, fun hne => ?_⟩
    · rw [State.fired_trace hw, scanStepsIn_append, State.scanStepsIn_scanEvents]
    · exact ((State.fired_roles hw).resolve_left fun hd => hne hd.1.1).2.1

theorem State.tickOnce_movesOn {s : State} (hw : s.topo.wf = true) (hp : s.phase = 0#3) : s.MovesOn s.tickOnce := by
  rcases s.tickOnce_cases with ⟨-, he⟩ | ⟨-, -, he⟩ | ⟨-, -, he⟩ <;> rw [he]
  · exact .idle hp s.inputs
  · exact ⟨rfl, hp, .inl ⟨⟨rfl, rfl, rfl⟩, rfl⟩⟩
  · exact State.fired_movesOn hw

theorem step_movesOn {s t : State} (hst : step s = .next t) (hr : noReset s.inputs = true) (hp : s.phase = 0#3) :
    s.MovesOn t := by
  obtain ⟨hw, rfl | ⟨i, hd, rfl⟩ | ⟨m, rest, -, -, rfl | ⟨i, hm, rfl⟩⟩⟩ := step_takes hst hr
  · exact .idle hp t.inputs
  · rw [hp] at hd
    cases hd
  · exact .idle hp rest
  · have hmove : ({ s with inputs := rest } : State).MovesOn (effect i { s with inputs := rest }) := by
      rcases Input.context_of_carries hm with hi | rfl
      · exact effect_mainLoop_movesOn hi hp
      · exact State.tickOnce_movesOn hw hp
    exact { hmove with scan := hmove.scan.imp_left fun h => ⟨{ h.1 with }, h.2⟩ }

/-- How far the moves from `s` to `t` have come: while the scan steps made since `s` have not wrapped the index, they are counted by it,
and the roles and the display plane are as in `s`. -/
structure State.InCycle (s t : State) : Prop where
  topo : t.topo = s.topo
  phase : t.phase = 0#3
  inputs : t.inputs <:+ s.inputs
  steps_le : scanStepsIn s.trace ≤ scanStepsIn t.trace
  unbroken : s.index + (scanStepsIn t.trace - scanStepsIn s.trace) < s.topo.rowsPerScan →
    t.index = s.index + (scanStepsIn t.trace - scanStepsIn s.trace) ∧ t.drawSel = s.drawSel ∧ samePlane s t s.displaySel

theorem State.InCycle.refl {s : State} (hp : s.phase = 0#3) : s.InCycle s :=
  ⟨rfl, hp, List.suffix_rfl, Nat.le_refl _, fun _ => ⟨by omega, rfl, fun _ => rfl⟩⟩

theorem State.InCycle.step {s t u : State} (h : s.InCycle t) (hr : noReset s.inputs = true) (hst : step t = .next u) :
    s.InCycle u := by
  have hrt := noReset_of_suffix h.inputs hr
  obtain ⟨⟨used, htook⟩, hshown⟩ := step_took hst hrt
  obtain ⟨hT, hp, hscan⟩ := step_movesOn hst hrt h.phase
  have hle := h.steps_le
  have hmono : scanStepsIn t.trace ≤ scanStepsIn u.trace := by
    rcases hscan with ⟨hsame, -⟩ | ⟨-, hsteps, -⟩
    · exact hsame.steps.ge
    · omega
  refine ⟨hT.trans h.topo, hp, htook.suffix.trans h.inputs, hle.trans hmono, fun hlt => ?_⟩
  obtain ⟨hindex, hdraw, hplane⟩ := h.unbroken (by omega)
  have hsel : t.displaySel = s.displaySel := congrArg (· ^^^ 1#1) hdraw
  have hplane' : samePlane s u s.displaySel := fun off => by rw [← hplane off, ← hsel, hshown off]
  rcases hscan with ⟨hsame, hdraw'⟩ | ⟨hindex', hsteps, hdraw'⟩
  · exact ⟨by rw [hsame.index, hindex, hsame.steps], hdraw'.trans hdraw, hplane'⟩
  · have hnext : u.index = t.index + 1 := by
      rw [hindex', h.topo, Nat.mod_eq_of_lt (by omega)]
    exact ⟨by omega, (hdraw' (by omega)).trans hdraw, hplane'⟩

/-- Settles O49: every step keeps `State.InCycle`, so every run does. -/
theorem noTearWithinACycle : Obligations.NoTearWithinACycle := by
  intro k s t _ hp hr hrun hlt
  have hcycle : s.InCycle t := runSteps_keeps (fun u v h hst => h.step hr hst) (.refl hp) hrun
  exact (hcycle.unbroken hlt).2

/-! ### What is displayed after a swap (42 R105) -/

/-- A run takes the moves at the front; if none of them draws, both planes stay. -/
theorem runSteps_took {k : Nat} {s t : State} (hr : noReset s.inputs = true) (hrun : runSteps k s = .next t) :
    ∃ used, s.Took t used := by
  refine runSteps_keeps (P := fun u => ∃ used, s.Took u used) ?_ ⟨[], rfl, fun _ _ _ => rfl⟩ hrun
  rintro u v ⟨used, htook⟩ hst
  obtain ⟨⟨more, htook'⟩, -⟩ := step_took hst (noReset_of_suffix htook.suffix hr)
  exact ⟨_, htook.trans htook'⟩

/-- While the roles stay, no byte of the display plane changes. -/
theorem samePlane_of_roles_stay {m : Nat} {b t : State} (hr : noReset b.inputs = true) (hrun : runSteps m b = .next t)
    (hroles : ∀ j ≤ m, ∀ u, runSteps j b = .next u → u.drawSel = b.drawSel) : samePlane b t b.displaySel := by
  induction m generalizing b with
  | zero =>
    cases hrun
    exact fun _ => rfl
  | succ m ih =>
    obtain ⟨u, hu, hrun⟩ := exists_step_of_runSteps_succ hrun
    obtain ⟨⟨used, htook⟩, hshown⟩ := step_took hu hr
    have hdraw : u.drawSel = b.drawSel := hroles 1 (by omega) u (runSteps_succ hu 0)
    have hsel : u.displaySel = b.displaySel := congrArg (· ^^^ 1#1) hdraw
    have hroles' : ∀ j ≤ m, ∀ v, runSteps j u = .next v → v.drawSel = u.drawSel := fun j hj v hv =>
      (hroles (j + 1) (by omega) v ((runSteps_succ hu j).trans hv)).trans hdraw.symm
    have hstay := ih (noReset_of_suffix htook.suffix hr) hrun hroles'
    rw [hsel] at hstay
    exact fun off => (hstay off).trans (hshown off)

/-- Settles O50: up to the boundary no move draws, so both planes stay; from there the draw plane of the request is the display plane, and stays. -/
theorem requestedFrameIsDisplayed : Obligations.RequestedFrameIsDisplayed := by
  intro k m s b t used _ _ _ hr hrun hin hno hswap hrun' hroles off
  obtain ⟨taken, htook⟩ := runSteps_took hr hrun
  obtain rfl : taken = used := List.append_cancel_right (htook.1.symm.trans hin)
  have hdisplay := samePlane_of_roles_stay (noReset_of_suffix htook.suffix hr) hrun' hroles
  have hsel : b.displaySel = s.drawSel := by rw [State.displaySel, hswap, BitVec.xor_assoc, BitVec.xor_self, BitVec.xor_zero]
  have hdraw : t.drawSel = b.drawSel := hroles m (Nat.le_refl m) t hrun'
  calc t.memRead (t.drawSel ^^^ 1#1) off = t.memRead b.displaySel off := by rw [hdraw, State.displaySel]
    _ = b.memRead b.displaySel off := hdisplay off
    _ = s.memRead s.drawSel off := by rw [hsel, htook.2 hno]

/-! ### The latency of a swap (42 R107) -/

/-- Between scan steps a step takes the tick that comes next (20_memory.md R40). -/
theorem step_tick {s : State} {rest : List Input} (hw : s.topo.wf = true) (hp : s.phase = 0#3)
    (hin : s.inputs = .tick 1#1 :: rest) : step s = .next ({ s with inputs := rest } : State).tickOnce := by
  have hfetch : s.fetch = .word (.evt 1#1) { s with inputs := rest } := by
    simp [State.fetch, hin, hp]
  rw [step, whenWellFormed_wf hw, hfetch]
  exact exec_effect (i := .tick) (s := { s with inputs := rest }) hw trivial

theorem step_tick_firing {s : State} {rest : List Input} (hw : s.topo.wf = true) (hp : s.phase = 0#3)
    (hin : s.inputs = .tick 1#1 :: rest) (hon : s.interval ≠ 0) (hdue : s.interval ≤ s.tickCnt + 1) :
    step s = .next ({ s with inputs := rest } : State).fired := by
  rw [step_tick hw hp hin, State.tickOnce_firing (s := { s with inputs := rest }) hon hdue]

/-- `j` scan steps after `s`, a scan step being due on every tick: the index is `j` on, and the swap pending in `s` is made from
`j = ROWS_PER_SCAN - index` on. -/
structure State.AfterScans (s : State) (j : Nat) (t : State) : Prop where
  topo : t.topo = s.topo
  interval : t.interval = 1
  index : t.index = (s.index + j) % s.topo.rowsPerScan
  made : s.topo.rowsPerScan - s.index ≤ j → t.drawSel = s.drawSel ^^^ 1#1 ∧ t.swapPending = 0#1
  pending : j < s.topo.rowsPerScan - s.index → t.drawSel = s.drawSel ∧ t.swapPending = 1#1

theorem State.AfterScans.fired {s t : State} {j : Nat} (h : s.AfterScans j t) (hw : s.topo.wf = true)
    (hi : s.index < s.topo.rowsPerScan) (hj : j < s.topo.rowsPerScan) : s.AfterScans (j + 1) t.fired := by
  have hw' : t.topo.wf = true := by rw [h.topo, hw]
  have hindex : t.fired.index = (s.index + (j + 1)) % s.topo.rowsPerScan := by
    rw [State.fired_index hw', h.index, h.topo, Nat.mod_add_mod, Nat.add_assoc]
  have hwrap : t.fired.index = 0 ↔ s.index + (j + 1) = s.topo.rowsPerScan := by
    rw [hindex]
    refine ⟨fun h0 => ?_, fun he => by rw [he, Nat.mod_self]⟩
    exact Nat.eq_of_dvd_of_lt_two_mul (by omega) (Nat.dvd_of_mod_eq_zero h0) (by omega)
  refine ⟨(State.fired_topo hw').trans h.topo, (congrArg State.interval (State.fired_frame hw')).trans h.interval, hindex,
    fun hge => ?_, fun hlt => ?_⟩
  · by_cases hnow : s.index + (j + 1) = s.topo.rowsPerScan
    · obtain ⟨hdraw, hpend⟩ := h.pending (by omega)
      obtain ⟨-, hswap⟩ := (State.fired_roles hw').resolve_right fun hd => hd.1 ⟨hwrap.2 hnow, hpend⟩
      rwa [hdraw] at hswap
    · obtain ⟨hdraw, hpend⟩ := h.made (by omega)
      obtain ⟨-, hkeep⟩ := (State.fired_roles hw').resolve_left fun hd => hnow (hwrap.1 hd.1.1)
      rwa [hdraw, hpend] at hkeep
  · obtain ⟨hdraw, hpend⟩ := h.pending (by omega)
    obtain ⟨-, hkeep⟩ := (State.fired_roles hw').resolve_left fun hd => absurd (hwrap.1 hd.1.1) (by omega)
    rwa [hdraw, hpend] at hkeep

theorem runSteps_afterScans {s : State} (h : s.Inv) (hp : s.phase = 0#3) (hpend : s.swapPending = 1#1) (hone : s.interval = 1)
    (hin : s.inputs = List.replicate s.topo.rowsPerScan (.tick 1#1)) {j : Nat} (hj : j ≤ s.topo.rowsPerScan) :
    ∃ t, runSteps j s = .next t ∧ t.phase = 0#3 ∧ t.inputs = List.replicate (s.topo.rowsPerScan - j) (.tick 1#1) ∧
      s.AfterScans j t := by
  have hi := h.index_lt
  induction j with
  | zero =>
    refine ⟨s, rfl, hp, hin, rfl, hone, (Nat.mod_eq_of_lt hi).symm, fun hge => ?_, fun _ => ⟨rfl, hpend⟩⟩
    omega
  | succ j ih =>
    obtain ⟨t, hrun, hpt, hint, hafter⟩ := ih (by omega)
    have hw : t.topo.wf = true := by rw [hafter.topo, h.topo_wf]
    have hhead : t.inputs = .tick 1#1 :: List.replicate (s.topo.rowsPerScan - (j + 1)) (.tick 1#1) := by
      rw [hint, ← List.replicate_succ]
      congr 1
      omega
    have hst := step_tick_firing hw hpt hhead (by rw [hafter.interval]; decide) (by rw [hafter.interval]; omega)
    have hnext : s.AfterScans j { t with inputs := List.replicate (s.topo.rowsPerScan - (j + 1)) (.tick 1#1) } := { hafter with }
    generalize hv : ({ t with inputs := List.replicate (s.topo.rowsPerScan - (j + 1)) (.tick 1#1) } : State) = v at hst hnext
    have hwv : v.topo.wf = true := by rw [hnext.topo, h.topo_wf]
    have hframe := State.fired_frame hwv
    refine ⟨v.fired, (runSteps_succ_last hrun).trans hst, congrArg State.phase hframe, ?_, hnext.fired h.topo_wf hi hj⟩
    exact (congrArg State.inputs hframe).trans (congrArg State.inputs hv).symm

/-- Settles O52: the state after `j` ticks by `runSteps_afterScans`. -/
theorem swapLatency : Obligations.SwapLatency := by
  intro s j h hp hpend hone hin hj
  obtain ⟨t, hrun, -, -, hafter⟩ := runSteps_afterScans h hp hpend hone hin hj
  exact ⟨t, hrun, hafter.made, hafter.pending⟩

end Sys2Proof.Machine
end

section
/-! PROOFS. The writers and the readers of the planes (43 R110 to R114, 20_memory.md R33). -/

namespace Sys2Proof

/-- `zext_8(c[2:0])` is `c` with its upper five bits masked off (43 R112). -/
theorem storedColour_eq_and (c : Byte) : storedColour c = c &&& 7#8 := by
  revert c
  decide

end Sys2Proof

namespace Sys2Proof.Machine

/-! ### SETPIX (43 R110 to R113) -/

/-- `s` with other contents of the planes. -/
def State.withPlanes (s : State) (m0 m1 : List Host.Cell) : State := { s with plane0 := m0, plane1 := m1 }

/-- A store changes nothing outside the planes (20_memory.md R30). -/
theorem State.memWrite_eq_withPlanes (s : State) (sel : Bit) (off : Nat) (v : Byte) :
    s.memWrite sel off v = s.withPlanes (s.memWrite sel off v).plane0 (s.memWrite sel off v).plane1 := by
  unfold State.memWrite
  split <;> rfl

theorem exec_setpix_refused {s : State} {x y : Nat} {c : Byte} (hw : s.topo.wf = true)
    (hout : s.topo.width ≤ x ∨ s.topo.height ≤ y) : exec (.setpix x y c) s = .refused .outOfRangePixel :=
  (whenWellFormed_wf hw _).trans (if_pos hout)

/-- Settles O16: the store by the laws of the planes' memory, and the refusal. -/
theorem setpixStoresOneColour : Obligations.SetpixStoresOneColour := by
  refine fun s x y c hw => ⟨fun hx hy => ?_, exec_setpix_refused hw⟩
  refine ⟨s.storePixel x y c, exec_effect hw ⟨hx, hy⟩, ⟨?_, fun sel o hne => ?_⟩, s.memWrite_eq_withPlanes ..⟩
  · exact (s.memRead_memWrite_same ..).trans (storedColour_eq_and c)
  · exact s.memRead_memWrite_other _ _ _ (not_and_or.1 hne)

/-! ### What an operation reads of the planes (43 R114, 20_memory.md R33) -/

theorem State.memWrite_withPlanes (s : State) (sel : Bit) (off : Nat) (v : Byte) (m0 m1 : List Host.Cell) :
    (s.memWrite sel off v).withPlanes m0 m1 = s.withPlanes m0 m1 := by
  rw [State.memWrite_eq_withPlanes]
  rfl

/-- A swap check moves roles, not bytes (43 R114). -/
theorem State.swapCheck_withPlanes (s : State) (m0 m1 : List Host.Cell) :
    (s.withPlanes m0 m1).swapCheck = s.swapCheck.withPlanes m0 m1 :=
  (apply_ite (State.withPlanes · m0 m1) (s.swapDue = true) s.exchangeRoles s).symm

theorem State.SameView.shiftEvents {s t : State} (h : s.SameView t) : t.shiftEvents = s.shiftEvents := by
  have hpass : t.passEvents = s.passEvents := funext fun p => by simp only [State.passEvents, h.topo, h.presented]
  rw [State.shiftEvents, State.shiftEvents, h.topo, hpass]

/-- `SHIFTROW` reads the display plane alone (20_memory.md R33). -/
theorem State.shiftRows_withPlanes {s : State} {m0 m1 : List Host.Cell} (h : samePlane s (s.withPlanes m0 m1) s.displaySel) :
    (s.withPlanes m0 m1).shiftRows = s.shiftRows.withPlanes m0 m1 := by
  have view : s.SameView (s.withPlanes m0 m1) := ⟨rfl, rfl, rfl, h⟩
  rw [State.shiftRows_eq, State.shiftRows_eq, view.shiftEvents]
  rfl

/-- What an operation leaves outside the planes does not depend on them, but for the display plane that `SHIFTROW` reads. -/
theorem effect_withPlanes {i : Instr} (htick : i ≠ .tick) {s : State} {m0 m1 : List Host.Cell}
    (hread : i ≠ .shiftrow ∨ samePlane s (s.withPlanes m0 m1) s.displaySel) :
    ∃ n0 n1, effect i (s.withPlanes m0 m1) = (effect i s).withPlanes n0 n1 := by
  cases i with
  | tick => exact absurd rfl htick
  | setpix x y c =>
    have hstore := (s.withPlanes m0 m1).memWrite_eq_withPlanes s.drawSel (s.topo.pixelOffset (s.topo.bufferRow y) x) (storedColour c)
    exact ⟨_, _, hstore.trans (s.memWrite_withPlanes ..).symm⟩
  | swapchk => exact ⟨m0, m1, s.swapCheck_withPlanes m0 m1⟩
  | shiftrow => exact ⟨m0, m1, State.shiftRows_withPlanes (hread.resolve_left (· rfl))⟩
  | _ => exact ⟨m0, m1, rfl⟩

/-- Settles O17: the bytes of the planes after an operation, and its effect on other contents of the planes. -/
theorem onlySetpixWritesAPlane : Obligations.OnlySetpixWritesAPlane := by
  intro i s t hex
  obtain ⟨hw, hc, rfl⟩ := (exec_next_iff i s t).1 hex
  refine ⟨fun hi => effect_memRead hi hw, fun _ => effect_memRead_display i hw, fun s' htick hs hread => ?_⟩
  generalize s'.plane0 = m0, s'.plane1 = m1 at hs
  subst hs
  obtain ⟨n0, n1, heff⟩ := effect_withPlanes htick hread
  exact ⟨(effect i s).withPlanes n0 n1, (exec_effect (s := s.withPlanes m0 m1) hw hc).trans (congrArg _ heff), rfl⟩

end Sys2Proof.Machine
end

section
/-! PROOFS. The registration of an interval and the count of the ticks (44 R120, R121), and the scan step that is due, micro-operation by
micro-operation (40 R70). -/

namespace Sys2Proof.Machine

/-! ### TICK (44 R121) -/

theorem exec_tick {s : State} (hw : s.topo.wf = true) : exec .tick s = .next s.tickOnce := exec_effect hw trivial

theorem exec_tick_disabled {s : State} (hw : s.topo.wf = true) (hoff : s.interval = 0) : exec .tick s = .next s := by
  rw [exec_tick hw, State.tickOnce_disabled hoff]

theorem exec_tick_counting {s : State} (hw : s.topo.wf = true) (hlt : s.tickCnt + 1 < s.interval) :
    exec .tick s = .next (s.setTickCnt (s.tickCnt + 1)) := by
  rw [exec_tick hw, State.tickOnce_counting (Nat.ne_zero_of_lt hlt) hlt]

theorem State.fired_interval {s : State} (hw : s.topo.wf = true) : s.fired.interval = s.interval :=
  (congrArg State.interval (State.fired_frame hw)).trans rfl

theorem State.fired_tickCnt {s : State} (hw : s.topo.wf = true) : s.fired.tickCnt = 0 :=
  congrArg State.tickCnt (State.fired_frame hw)

/-- A `TICK` keeps the interval, and the count below it, so that the count never overflows its register (44 R121). -/
theorem State.tickOnce_keeps_count_lt {s : State} (hw : s.topo.wf = true) (hlt : s.tickCnt < s.interval) :
    s.tickOnce.interval = s.interval ∧ s.tickOnce.tickCnt < s.tickOnce.interval := by
  rcases s.tickOnce_cases with ⟨-, he⟩ | ⟨-, hcount, he⟩ | ⟨-, -, he⟩ <;> rw [he]
  · exact ⟨rfl, hlt⟩
  · exact ⟨rfl, hcount⟩
  · rw [State.fired_interval hw, State.fired_tickCnt hw]
    exact ⟨rfl, Nat.zero_lt_of_lt hlt⟩

/-- `j` times `TICK`, while the count stays below the interval. -/
theorem tick_iterate {s : State} (hw : s.topo.wf = true) {j : Nat} (hj : s.tickCnt + j < s.interval) :
    (fun u => (completed (exec .tick u)).getD u)^[j] s = s.setTickCnt (s.tickCnt + j) := by
  induction j with
  | zero => rfl
  | succ j ih =>
    have hone := exec_tick_counting (s := s.setTickCnt (s.tickCnt + j)) hw hj
    rw [Function.iterate_succ_apply', ih (Nat.lt_of_succ_lt hj), hone]
    rfl

/-! ### The scan step, micro-operation by micro-operation (40 R70) -/

/-- No operation changes the topology (10_state.md R21). -/
theorem effect_topo (i : Instr) {s : State} (hw : s.topo.wf = true) : (effect i s).topo = s.topo := by
  cases i with
  | advance | setaddr => rfl
  | tick =>
    rcases s.tickOnce_cases with ⟨-, he⟩ | ⟨-, -, he⟩ | ⟨-, -, he⟩ <;> rw [effect, he]
    · rfl
    · exact State.fired_topo hw
  | _ => exact (effect_sameCount rfl s).topo

/-- An operation run at a phase completes, and leaves a state in which the next one can run. -/
theorem exec_setPhase (i : Instr) (p : BitVec 3) {s : State} (hw : s.topo.wf = true) (hc : completesOn s.topo i) :
    exec i (s.setPhase p) = .next (effect i (s.setPhase p)) ∧ (effect i (s.setPhase p)).topo.wf = true := by
  refine ⟨exec_effect (s := s.setPhase p) hw hc, ?_⟩
  rw [effect_topo i (s := s.setPhase p) hw]
  exact hw

/-- Settles O35: the branches of `TICK`; the firing one is the chain of the seven micro-operations from the cleared count, each completing by
`exec_setPhase`. -/
theorem tickCountsAndFires : Obligations.TickCountsAndFires := by
  refine fun s hw => ⟨fun hlt => ?_, exec_tick_disabled hw, fun _ => exec_tick_counting hw, fun hon hdue => ?_⟩
  · exact ⟨s.tickOnce, exec_tick hw, State.tickOnce_keeps_count_lt hw hlt⟩
  · obtain ⟨h1, hw1⟩ := exec_setPhase .blank 1#3 (s := s.setTickCnt 0) hw trivial
    obtain ⟨h2, hw2⟩ := exec_setPhase .advance 2#3 hw1 trivial
    obtain ⟨h3, hw3⟩ := exec_setPhase .swapchk 3#3 hw2 trivial
    obtain ⟨h4, hw4⟩ := exec_setPhase .setaddr 4#3 hw3 trivial
    obtain ⟨h5, hw5⟩ := exec_setPhase .shiftrow 5#3 hw4 trivial
    obtain ⟨h6, hw6⟩ := exec_setPhase .latch 6#3 hw5 trivial
    obtain ⟨h7, -⟩ := exec_setPhase .unblank 7#3 hw6 trivial
    exact ⟨_, _, _, _, _, _, _, h1, h2, h3, h4, h5, h6, h7, exec_tick_firing hw hon hdue⟩

/-! ### REGPER (44 R120) -/

theorem exec_regper {s : State} {n : Nat} (hw : s.topo.wf = true) (hn : n < 2 ^ s.topo.intervalBits) :
    exec (.regper n) s = .next (s.setInterval n) := by
  have h := exec_effect (i := .regper n) hw trivial
  rwa [effect, State.register, Topology.intervalValue_of_lt hn] at h

/-- Settles O33: the ticks after a registration count from 0 by `tick_iterate`, and the last before the interval fires. -/
theorem regperReplacesTheInterval : Obligations.RegperReplacesTheInterval := by
  refine fun s n hw hn => ⟨s.setInterval n, exec_regper hw hn, rfl, fun hoff => ?_, fun j hj => ?_, fun hpos => ?_⟩
  · exact exec_tick_disabled (s := s.setInterval n) hw hoff
  · have hcount := tick_iterate (s := s.setInterval n) (j := j) hw (by simpa using hj)
    rw [State.setInterval_tickCnt, Nat.zero_add] at hcount
    exact hcount
  · have hw' : ({ s.setInterval n with tickCnt := n - 1 } : State).topo.wf = true := hw
    exact ⟨_, exec_tick_firing hw' (Nat.ne_of_gt hpos) (Nat.sub_add_cancel hpos).ge, State.fired_index hw', State.fired_tickCnt hw'⟩

end Sys2Proof.Machine
end

section
/-! PROOFS. Where nothing happens (60_exceptions.md): a topology that is not well formed stops every operation and every step (R131), and with
interval 0 the ticks are taken and no scan step is made (R144). -/

namespace Sys2Proof.Machine

/-! ### An ill-formed topology (60_exceptions.md R131) -/

theorem whenWellFormed_illFormed {s : State} (h : s.topo.wf = false) (r : Host.Outcome State Fault Refusal) :
    whenWellFormed s r = .refused .illFormedTopology := by
  simp [whenWellFormed, h]

/-- The guard is the outermost test of every operation's meaning, `SETPIX`'s range check included (log 17). -/
theorem exec_illFormed (i : Instr) {s : State} (h : s.topo.wf = false) : exec i s = .refused .illFormedTopology := by
  cases i <;> exact whenWellFormed_illFormed h _

/-- Settles O14: every arm of `exec`, and the step itself, stands behind the same check. -/
theorem illFormedTopologyIsRefused : Obligations.IllFormedTopologyIsRefused :=
  fun _ i h => ⟨exec_illFormed i h, whenWellFormed_illFormed h _⟩

/-! ### A disabled scan (60_exceptions.md R144) -/

theorem step_tick_disabled {s : State} {rest : List Input} (hw : s.topo.wf = true) (hp : s.phase = 0#3) (hoff : s.interval = 0)
    (hin : s.inputs = .tick 1#1 :: rest) : step s = .next { s with inputs := rest } := by
  rw [step_tick hw hp hin, State.tickOnce_disabled (s := { s with inputs := rest }) hoff]

/-- Settles O54, by induction on the number of ticks: each is taken by `step_tick_disabled`, which leaves the interval at 0 for the next. -/
theorem disabledScanIsFrozen : Obligations.DisabledScanIsFrozen := by
  intro s k
  induction k generalizing s with
  | zero =>
    rintro rest - - - hin
    have hrest : s.inputs = rest := hin
    rw [← hrest]
    rfl
  | succ k ih =>
    intro rest hw hp hoff hin
    rw [runSteps_succ (step_tick_disabled hw hp hoff hin)]
    exact ih _ rest hw hp hoff rfl

end Sys2Proof.Machine
end

section
/-! PROOFS. Decode after encode (30_encoding.md R52 to R57), and the words of 95_test_vectors.md L2.1. -/

namespace Sys2Proof

/-! ### The fields of a word put together from fields -/

theorem fields_of_append (op : BitVec 4) (c : Byte) (y x : BitVec 10) :
    cmdOp (op ++ c ++ y ++ x) = op ∧ cmdC (op ++ c ++ y ++ x) = c ∧ cmdY (op ++ c ++ y ++ x) = y ∧
    cmdX (op ++ c ++ y ++ x) = x := by
  have h := cmdOp_append_c_append_y_append_x (op ++ c ++ y ++ x)
  simpa only [append_eq_append_iff, and_assoc] using h

theorem regperFields_of_append (op : BitVec 4) (mid : BitVec 12) (n : BitVec 16) :
    cmdOp (op ++ mid ++ n) = op ∧ cmdMid12 (op ++ mid ++ n) = mid ∧ cmdN (op ++ mid ++ n) = n := by
  have h := cmdOp_append_mid12_append_n (op ++ mid ++ n)
  simpa only [append_eq_append_iff, and_assoc] using h

/-! ### Decode after encode (30_encoding.md R61) -/

theorem wellFormed_setpix_iff {x y : Nat} {c : Byte} : (Instr.setpix x y c).wellFormed = true ↔ x < 2 ^ 10 ∧ y < 2 ^ 10 := by
  rw [Instr.wellFormed, Bool.and_eq_true, decide_eq_true_eq, decide_eq_true_eq]

theorem decode_encode_setpix {x y : Nat} (c : Byte) (hx : x < 2 ^ 10) (hy : y < 2 ^ 10) :
    decode (encode (.setpix x y c)) = .operation (.setpix x y c) := by
  obtain ⟨hop, hc, hyf, hxf⟩ := fields_of_append 0x1#4 c (BitVec.ofNat 10 y) (BitVec.ofNat 10 x)
  rw [encode, decode, decodeCmd_setpix hop, hc, hyf, hxf, BitVec.toNat_ofNat, BitVec.toNat_ofNat, Nat.mod_eq_of_lt hx,
    Nat.mod_eq_of_lt hy]

theorem decode_encode_regper {n : Nat} (hn : n < 2 ^ 16) : decode (encode (.regper n)) = .operation (.regper n) := by
  obtain ⟨hop, hmid, hnf⟩ := regperFields_of_append 0x4#4 0#12 (BitVec.ofNat 16 n)
  rw [encode, decode, decodeCmd_regper ⟨hop, hmid⟩, hnf, BitVec.toNat_ofNat, Nat.mod_eq_of_lt hn]

/-- Settles O2: the operands of `SETPIX` and `REGPER` fit the fields they are read back from; the other operations have one word each. -/
theorem decodeOfEncodeIsIdentity : Obligations.DecodeOfEncodeIsIdentity := by
  intro i hi
  cases i with
  | setpix x y c =>
    obtain ⟨hx, hy⟩ := wellFormed_setpix_iff.1 hi
    exact decode_encode_setpix c hx hy
  | regper n => exact decode_encode_regper (of_decide_eq_true hi)
  | _ => rfl

/-- Settles O1: nineteen closed words, which the decoder reads by evaluation. -/
theorem workedWordsDecode : Obligations.WorkedWordsDecode := by
  unfold Obligations.WorkedWordsDecode
  decide

end Sys2Proof
end

section
/-! PROOFS. When an operation completes (60_exceptions.md R130, R131), and what it may touch in each of the two contexts (R139). -/

namespace Sys2Proof.Machine

/-! ### Completion (60_exceptions.md R130, R131) -/

/-- Settles O15: `SETPIX` in range and every other operation answer their effect; `SETPIX` out of range is refused. -/
theorem everyOtherOperationCompletes : Obligations.EveryOtherOperationCompletes := by
  refine fun i s hw => ⟨fun hrange => ⟨effect i s, exec_effect hw ?_⟩, ?_⟩
  · cases i with
    | setpix x y c => exact hrange x y c rfl
    | _ => trivial
  · rintro x y c rfl hout
    exact exec_setpix_refused hw hout

/-- Settles O34: the value of log 5 has the register's width, whatever `n` is. -/
theorem regperBeyondTheRegister : Obligations.RegperBeyondTheRegister :=
  fun s n hw => ⟨s.topo.intervalValue n, s.topo.intervalValue_lt n, exec_effect (i := .regper n) hw trivial⟩

/-! ### The two contexts (60_exceptions.md R139) -/

/-- Settles O42: a store stays in the planes, and each of the other commands is one write of a field of its own. -/
theorem mainLoopTouchesOnlyItsOwn : Obligations.MainLoopTouchesOnlyItsOwn := by
  intro i s t hi hex
  obtain ⟨-, -, rfl⟩ := (exec_next_iff i s t).1 hex
  cases i with
  | setpix x y c =>
    rw [effect, State.storePixel, State.memWrite_eq_withPlanes]
    exact ⟨rfl, rfl, rfl, rfl, rfl, rfl, rfl, rfl, rfl, .inl rfl, .inl ⟨rfl, rfl⟩, .inl rfl⟩
  | swapreq => exact ⟨rfl, rfl, rfl, rfl, rfl, rfl, rfl, rfl, rfl, .inr ⟨rfl, rfl⟩, .inl ⟨rfl, rfl⟩, .inl rfl⟩
  | drawbuf => exact ⟨rfl, rfl, rfl, rfl, rfl, rfl, rfl, rfl, rfl, .inl rfl, .inl ⟨rfl, rfl⟩, .inr rfl⟩
  | regper n => exact ⟨rfl, rfl, rfl, rfl, rfl, rfl, rfl, rfl, rfl, .inl rfl, .inr ⟨n, rfl⟩, .inl rfl⟩
  | _ => cases hi

/-- A firing `TICK` changes the flag at most to 0 (42 R102). -/
theorem State.fired_swapPending {s : State} (hw : s.topo.wf = true) :
    s.fired.swapPending = s.swapPending ∨ s.fired.swapPending = 0#1 := by
  rcases State.fired_roles hw with ⟨-, -, hcleared⟩ | ⟨-, -, hkept⟩
  · exact .inr hcleared
  · exact .inl hkept

/-- Settles O43: only the swap check, alone or in a firing `TICK`, writes the flag, and only `TICK` the count. -/
theorem interruptTouchesOnlyItsOwn : Obligations.InterruptTouchesOnlyItsOwn := by
  intro i s t hi hex
  obtain ⟨hw, -, rfl⟩ := (exec_next_iff i s t).1 hex
  cases i with
  | setpix | swapreq | drawbuf | regper => cases hi
  | tick =>
    rcases s.tickOnce_cases with ⟨-, he⟩ | ⟨-, -, he⟩ | ⟨-, -, he⟩ <;> rw [effect, he]
    · exact ⟨rfl, rfl, rfl, rfl, rfl, rfl, .inr rfl, .inl rfl⟩
    · exact ⟨rfl, rfl, rfl, rfl, rfl, rfl, .inr rfl, .inl rfl⟩
    · have hflag := State.fired_swapPending hw
      rw [State.fired_frame hw]
      exact ⟨rfl, rfl, rfl, rfl, rfl, rfl, .inr rfl, hflag⟩
  | swapchk =>
    rcases s.swapCheck_cases with ⟨-, -, he⟩ | ⟨-, he⟩ <;> rw [effect, he]
    · exact ⟨rfl, rfl, rfl, rfl, rfl, rfl, .inl rfl, .inr rfl⟩
    · exact ⟨rfl, rfl, rfl, rfl, rfl, rfl, .inl rfl, .inl rfl⟩
  | shiftrow =>
    rw [effect, State.shiftRows_eq]
    exact ⟨rfl, rfl, rfl, rfl, rfl, rfl, .inl rfl, .inl rfl⟩
  | _ => exact ⟨rfl, rfl, rfl, rfl, rfl, rfl, .inl rfl, .inl rfl⟩

end Sys2Proof.Machine
end

section
/-! PROOFS. The record and the state at reset (00_scope.md R8, R9, 10_state.md R23), and one step, case by case of what is fetched
(20_memory.md R40). -/

namespace Sys2Proof.Machine

/-! ### At reset (10_state.md R23) -/

/-- The check of R7 reads none of the parameters that R8 leaves open: orientation, wiring colours, plane contents. -/
theorem wf_of_openParameters (T : Topology) (inv : Bool) (colors : List (List LedColor)) (init : Nat) :
    ({ T with yInvert := inv, colorOfLine := colors, initPlanes := init } : Topology).wf = T.wf := rfl

/-- Settles O9: each record is one closed record with other open parameters, and that one is checked by evaluation. -/
theorem namedTopologiesAreWellFormed : Obligations.NamedTopologiesAreWellFormed := by
  refine fun inv colors init => ⟨?_, ?_, ?_, ?_⟩
  · exact (wf_of_openParameters (.tSingle false [] 0) inv colors init).trans (by decide)
  · exact (wf_of_openParameters (.tDual false [] 0) inv colors init).trans (by decide)
  · exact (wf_of_openParameters (.tHalfA false [] 0) inv colors init).trans (by decide)
  · exact (wf_of_openParameters (.tHalfB false [] 0) inv colors init).trans (by decide)

/-- Nothing is listed in the planes at reset, so a read finds the record's contents (log 3). -/
theorem State.resetFor_memRead (T : Topology) (sel : Bit) (off : Nat) :
    (State.resetFor T).memRead sel off = Config.initPlanes T.initPlanes sel off := by
  have hempty : (State.resetFor T).plane sel = [] := ite_self _
  rw [State.memRead, hempty]
  rfl

/-- Settles O10: the planes by `State.resetFor_memRead`, the data lines as copies of 0, the other registers as written in R23. -/
theorem resetStateValues : Obligations.ResetStateValues := fun T =>
  ⟨rfl, rfl, rfl, State.resetFor_memRead T, rfl, rfl, rfl, rfl, rfl, rfl, List.length_replicate,
    fun _ hd => List.eq_of_mem_replicate hd, rfl, rfl, rfl⟩

/-- Settles O45: `State.inv_resetFor`, and the record of `State.reset` is one of those R8 names. -/
theorem invariantHoldsAtReset : Obligations.InvariantHoldsAtReset :=
  ⟨fun _ hT => State.inv_resetFor hT, State.inv_resetFor (namedTopologiesAreWellFormed false [] 0).1⟩

/-! ### One step, by what is fetched (20_memory.md R40) -/

section
variable {s : State} {rest : List Input}

theorem step_reset (hw : s.topo.wf = true) (hin : s.inputs = .reset :: rest) : step s = .next (s.afterReset rest) := by
  have hfetch : s.fetch = .resetLine rest := by simp [State.fetch, hin]
  rw [step, whenWellFormed_wf hw, hfetch]
  rfl

theorem step_idle (hw : s.topo.wf = true) (hp : s.phase = 0#3) (hin : s.inputs = []) : step s = .next s := by
  have hfetch : s.fetch = .nothing := by simp [State.fetch, hin, hp]
  rw [step, whenWellFormed_wf hw, hfetch]
  rfl

theorem step_level {level : Bit} (hw : s.topo.wf = true) (hp : s.phase = 0#3) (hin : s.inputs = .tick level :: rest) :
    step s = runWord (.evt level) { s with inputs := rest } := by
  have hfetch : s.fetch = .word (.evt level) { s with inputs := rest } := by simp [State.fetch, hin, hp]
  rw [step, whenWellFormed_wf hw, hfetch]
  rfl

/-- Inside a scan step what is fetched is the micro-operation at the phase, whatever move comes next, `rst` apart (60_exceptions.md R137). -/
theorem State.fetch_inside (hp : s.phase ≠ 0#3) (hr : ∀ l, s.inputs ≠ .reset :: l) : s.fetch = s.fetchMicro := by
  unfold State.fetch
  split
  · next l hin => exact absurd hin (hr l)
  all_goals exact if_neg hp

theorem step_micro (hw : s.topo.wf = true) (hp : s.phase ≠ 0#3) (hr : ∀ l, s.inputs ≠ .reset :: l) :
    step s = runWord (.uop s.phase) (s.setPhase (s.phase + 1#3)) := by
  rw [step, whenWellFormed_wf hw, State.fetch_inside hp hr]
  rfl

theorem runWord_operation {w : PortWord} {i : Instr} (hd : decode w = .operation i) (s : State) : runWord w s = exec i s := by
  simp [runWord, hd]

/-- A step and an operation stand behind the same check of the topology (60_exceptions.md R131). -/
theorem step_eq_exec_of_wf {u : State} {i : Instr} (hT : u.topo = s.topo) (h : s.topo.wf = true → step s = exec i u) :
    step s = exec i u := by
  cases hw : s.topo.wf with
  | true => exact h hw
  | false => exact (whenWellFormed_illFormed hw _).trans (exec_illFormed i (by rw [hT, hw])).symm
end

/-- Settles O11: `rst` is fetched before the phase is looked at. -/
theorem rstRestoresTheResetState : Obligations.RstRestoresTheResetState := fun _ _ hw hin => step_reset hw hin

/-- Settles O12: the word fetched is an operation, which runs past the move or past the phase. -/
theorem stepRunsTheDecodedOperation : Obligations.StepRunsTheDecodedOperation := by
  refine fun s rest i => ⟨fun w hp hin hd => ?_, fun hp hin => ?_, fun hp hr hd => ?_⟩ <;>
    refine step_eq_exec_of_wf rfl fun hw => ?_
  · rw [step_command hw hp hin, runWord_operation hd]
  · rw [step_level hw hp hin, runWord_operation rfl]
  · rw [step_micro hw hp hr, runWord_operation hd]
    rfl

/-- Settles O13: nothing is fetched, or a level that is no event. -/
theorem stepWithoutAnOperation : Obligations.StepWithoutAnOperation := by
  refine fun s rest hw hp => ⟨step_idle hw hp, fun hin => ?_⟩
  rw [step_level hw hp hin, runWord_rejected rfl]

/-! ### What a step may do to the topology and to the roles -/

/-- Everything a step can do, up to the phase and the moves to come: `rst`, or at most the effect of one operation. -/
theorem step_effect {s t : State} (hst : step s = .next t) : s.topo.wf = true ∧
    ((∃ rest, s.inputs = .reset :: rest ∧ t = s.afterReset rest) ∨
      ∃ p is, t = { s with phase := p, inputs := is } ∨ ∃ i, t = effect i { s with phase := p, inputs := is }) := by
  have hword : ∀ {w p is}, runWord w { s with phase := p, inputs := is } = .next t →
      t = { s with phase := p, inputs := is } ∨ ∃ i, t = effect i { s with phase := p, inputs := is } := by
    intro w p is hrun
    rcases runWord_next hrun with ⟨i, -, he⟩ | ⟨-, -, rfl⟩
    · exact .inr ⟨i, ((exec_next_iff ..).1 he).2.2⟩
    · exact .inl rfl
  obtain ⟨hw, hcases⟩ := step_cases hst
  refine ⟨hw, ?_⟩
  rcases hcases with hrst | ⟨-, -, rfl⟩ | ⟨-, hrun⟩ | ⟨w, rest, -, -, hrun⟩ | ⟨l, rest, -, -, hrun⟩
  · exact .inl hrst
  · exact .inr ⟨t.phase, t.inputs, .inl rfl⟩
  · exact .inr ⟨s.phase + 1#3, s.inputs, hword hrun⟩
  · exact .inr ⟨s.phase, rest, hword hrun⟩
  · exact .inr ⟨s.phase, rest, hword hrun⟩

/-- Settles O47: `rst` keeps the record, and so does every operation. -/
theorem topologyIsFixed : Obligations.TopologyIsFixed := by
  intro s t hst
  obtain ⟨hw, ⟨rest, -, rfl⟩ | ⟨p, is, rfl | ⟨i, rfl⟩⟩⟩ := step_effect hst
  · rfl
  · rfl
  · exact effect_topo i (s := { s with phase := p, inputs := is }) hw

/-- An operation that changes the roles leaves index 0 and had a swap pending, which it clears (42 R102). -/
theorem effect_swaps {i : Instr} {s : State} (hw : s.topo.wf = true) (hne : (effect i s).drawSel ≠ s.drawSel) :
    (effect i s).index = 0 ∧ s.swapPending = 1#1 ∧ (effect i s).swapPending = 0#1 ∧
      (effect i s).drawSel = s.drawSel ^^^ 1#1 := by
  cases i with
  | setpix x y c => exact absurd (State.memWrite_drawSel ..) hne
  | shiftrow => exact absurd (congrArg State.drawSel s.shiftRows_eq) hne
  | swapchk =>
    rcases s.swapCheck_cases with ⟨hindex, hpend, hswap⟩ | ⟨-, hsame⟩
    · rw [effect, hswap]
      exact ⟨hindex, hpend, rfl, rfl⟩
    · exact absurd (congrArg State.drawSel hsame) hne
  | tick =>
    rcases s.tickOnce_cases with ⟨-, he⟩ | ⟨-, -, he⟩ | ⟨-, -, he⟩ <;> rw [effect, he] at hne ⊢
    · exact absurd rfl hne
    · exact absurd rfl hne
    · rcases State.fired_roles hw with ⟨⟨hindex, hpend⟩, hdraw, hclear⟩ | ⟨-, hkept, -⟩
      · exact ⟨hindex, hpend, hclear, hdraw⟩
      · exact absurd hkept hne
  | _ => exact absurd rfl hne

/-- Settles O21: a step that is no `rst` changes the roles only by the effect of an operation. -/
theorem rolesChangeOnlyAtTheBoundary : Obligations.RolesChangeOnlyAtTheBoundary := by
  intro s t hst hne
  obtain ⟨hw, ⟨rest, hin, -⟩ | ⟨p, is, rfl | ⟨i, rfl⟩⟩⟩ := step_effect hst
  · exact .inl ⟨rest, hin⟩
  · exact absurd rfl hne
  · exact .inr (effect_swaps (s := { s with phase := p, inputs := is }) hw hne)

end Sys2Proof.Machine
end

section
/-! PROOFS. Inside a scan step: one step is the micro-operation at the phase, no other move is taken (60_exceptions.md R137), and seven steps are
the scan step that `TICK` runs whole (40 R70, log 9). -/

namespace Sys2Proof.Machine

theorem exists_decodeUop {p : BitVec 3} (hp : p ≠ 0#3) : ∃ i, decodeUop p = .operation i := by
  cases hd : decodeUop p with
  | operation i => exact ⟨i, rfl⟩
  | rejected why => exact absurd hd (decodeUop_ne_rejected hp why)

/-- No micro-operation reads the phase or writes it. -/
theorem effect_setPhase {p : BitVec 3} {i : Instr} (hd : decodeUop p = .operation i) (s : State) (q : BitVec 3) :
    effect i (s.setPhase q) = (effect i s).setPhase q := by
  rcases decodeUop_operation hd with ⟨-, rfl⟩ | ⟨-, rfl⟩ | ⟨-, rfl⟩ | ⟨-, rfl⟩ | ⟨-, rfl⟩ | ⟨-, rfl⟩ | ⟨-, rfl⟩
  case inr.inr.inl => exact s.swapCheck_setPhase q
  case inr.inr.inr.inr.inl => exact s.shiftRows_setPhase q
  all_goals rfl

/-- No `rst` comes next, and the topology is well formed: what lets the sequencer go on (60_exceptions.md R131, 70 R150). -/
structure State.Runs (s : State) : Prop where
  wf : s.topo.wf = true
  noRst : ∀ l, s.inputs ≠ .reset :: l

/-- One step of the sequencer: the micro-operation of a phase, run at that phase, and then the next phase. -/
theorem State.Runs.step {s : State} (h : s.Runs) {p : BitVec 3} {i : Instr} (hd : decodeUop p = .operation i) :
    step (s.setPhase p) = .next ((effect i (s.setPhase p)).setPhase (p + 1#3)) ∧ (effect i (s.setPhase p)).Runs := by
  have hp : p ≠ 0#3 := by
    rintro rfl
    cases hd
  have hc : completesOn s.topo i := by
    cases i with
    | setpix x y c => cases decodeUop_context hd
    | _ => trivial
  refine ⟨?_, ?_, ?_⟩
  · calc Machine.step (s.setPhase p) = runWord (.uop p) (s.setPhase (p + 1#3)) := step_micro (s := s.setPhase p) h.wf hp h.noRst
      _ = .next (effect i (s.setPhase (p + 1#3))) := by rw [runWord_operation (w := .uop p) hd, exec_effect (s := s.setPhase (p + 1#3)) h.wf hc]
      _ = .next ((effect i (s.setPhase p)).setPhase (p + 1#3)) := by rw [effect_setPhase hd, effect_setPhase hd]; rfl
  · rw [effect_topo i (s := s.setPhase p) h.wf]
    exact h.wf
  · rw [effect_inputs i (s := s.setPhase p) h.wf]
    exact h.noRst

/-- Settles O41: the one step of the sequencer sets the phase, and its micro-operation takes no move. -/
theorem noMoveInsideAScanStep : Obligations.NoMoveInsideAScanStep := by
  intro s t hp hr hst
  obtain ⟨hw, -⟩ := whenWellFormed_next hst
  obtain ⟨i, hd⟩ := exists_decodeUop hp
  have hrun : step s = .next ((effect i s).setPhase (s.phase + 1#3)) := (State.Runs.step ⟨hw, hr⟩ hd).1
  cases hrun.symm.trans hst
  exact ⟨effect_inputs i hw, rfl⟩

/-- Seven steps of the sequencer from phase 1 are the scan step run whole (40 R70). -/
theorem State.Runs.sevenSteps {s : State} (h : s.Runs) : runSteps 7 (s.setPhase 1#3) = .next s.scanStep := by
  obtain ⟨h1, r1⟩ := h.step (p := 1#3) (i := .blank) rfl
  obtain ⟨h2, r2⟩ := r1.step (p := 2#3) (i := .advance) rfl
  obtain ⟨h3, r3⟩ := r2.step (p := 3#3) (i := .swapchk) rfl
  obtain ⟨h4, r4⟩ := r3.step (p := 4#3) (i := .setaddr) rfl
  obtain ⟨h5, r5⟩ := r4.step (p := 5#3) (i := .shiftrow) rfl
  obtain ⟨h6, r6⟩ := r5.step (p := 6#3) (i := .latch) rfl
  obtain ⟨h7, -⟩ := r6.step (p := 7#3) (i := .unblank) rfl
  calc runSteps 7 (s.setPhase 1#3) = runSteps 0 _ :=
        (runSteps_succ h1 6).trans <| (runSteps_succ h2 5).trans <| (runSteps_succ h3 4).trans <| (runSteps_succ h4 3).trans <|
          (runSteps_succ h5 2).trans <| (runSteps_succ h6 1).trans <| runSteps_succ h7 0
    _ = .next s.scanStep := rfl

/-- Settles O40: the firing `TICK` clears the count and runs the scan step whole. -/
theorem atomicScanStepIsSevenSteps : Obligations.AtomicScanStepIsSevenSteps := by
  intro s hw hon hdue hr
  rw [exec_tick_firing hw hon hdue]
  exact State.Runs.sevenSteps (s := s.setTickCnt 0) ⟨hw, hr⟩

end Sys2Proof.Machine
end

section
/-! PROOFS. Moves in a row between scan steps: requests (42 R100), ticks (44 R120, R121), and the listing `FILL` (30_encoding.md R63). -/

namespace Sys2Proof.Machine

/-- Between scan steps a step runs the operation whose word comes next on the command port (30_encoding.md R51). -/
theorem step_encoded {s : State} {i : Instr} {w : PortBits} {rest : List Input} (hw : s.topo.wf = true) (hp : s.phase = 0#3)
    (hi : i.wellFormed = true) (henc : encode i = .cmd w) (hc : completesOn s.topo i) (hin : s.inputs = .command w :: rest) :
    step s = .next (effect i { s with inputs := rest }) := by
  have hd : decode (.cmd w) = .operation i := henc ▸ decodeOfEncodeIsIdentity i hi
  rw [step_command hw hp hin, runWord_operation hd]
  exact exec_effect (s := { s with inputs := rest }) hw hc

/-! ### Requests in a row (42 R100) -/

theorem step_swapreq {s : State} {rest : List Input} (hw : s.topo.wf = true) (hp : s.phase = 0#3) :
    step { s with inputs := .command 0x20000000#32 :: rest } = .next { s with swapPending := 1#1, inputs := rest } :=
  step_encoded (i := .swapreq) (s := { s with inputs := .command 0x20000000#32 :: rest }) hw hp rfl rfl trivial rfl

/-- One request or more: the flag is set and the moves are taken. -/
theorem runSteps_swapreqs (m : Nat) {s : State} {rest : List Input} (hw : s.topo.wf = true) (hp : s.phase = 0#3) :
    runSteps (m + 1) { s with inputs := List.replicate (m + 1) (.command 0x20000000#32) ++ rest } =
      .next { s with swapPending := 1#1, inputs := rest } := by
  induction m generalizing s with
  | zero => exact runSteps_succ (step_swapreq hw hp) 0
  | succ m ih => exact (runSteps_succ (step_swapreq hw hp) (m + 1)).trans (ih (s := { s with swapPending := 1#1 }) hw hp)

/-- Settles O22: `m + 1` requests and one request leave the state of `runSteps_swapreqs`. -/
theorem requestsCoalesce : Obligations.RequestsCoalesce :=
  fun m _ _ hw hp => (runSteps_swapreqs m hw hp).trans (runSteps_swapreqs 0 hw hp).symm

/-! ### Ticks in a row (44 R120, R121) -/

/-- From `s` to `t` the tick source has driven `q` scan steps, and otherwise no more than counted. -/
structure State.Scanned (s : State) (q : Nat) (t : State) : Prop where
  topo : t.topo = s.topo
  interval : t.interval = s.interval
  phase : t.phase = 0#3
  index : t.index = (s.index + q) % s.topo.rowsPerScan
  steps : scanStepsIn t.trace = scanStepsIn s.trace + q

theorem State.Scanned.trans {s t u : State} {q q' : Nat} (h : s.Scanned q t) (h' : t.Scanned q' u) : s.Scanned (q + q') u where
  topo := h'.topo.trans h.topo
  interval := h'.interval.trans h.interval
  phase := h'.phase
  index := by rw [h'.index, h.index, h.topo, Nat.mod_add_mod, Nat.add_assoc]
  steps := by rw [h'.steps, h.steps, Nat.add_assoc]

/-- One `TICK` with the count below the interval: it is counted, or it makes a scan step, which is worth `interval` counts. -/
theorem State.scanned_tickOnce {s : State} (hw : s.topo.wf = true) (hp : s.phase = 0#3) (hi : s.index < s.topo.rowsPerScan)
    (hlt : s.tickCnt < s.interval) :
    ∃ q, s.Scanned q s.tickOnce ∧ s.tickOnce.tickCnt < s.interval ∧ s.interval * q + s.tickOnce.tickCnt = s.tickCnt + 1 := by
  rcases s.tickOnce_cases with ⟨hoff, -⟩ | ⟨-, hcount, he⟩ | ⟨-, hdue, he⟩
  · omega
  · rw [he]
    exact ⟨0, ⟨rfl, rfl, hp, (Nat.mod_eq_of_lt hi).symm, rfl⟩, hcount, Nat.zero_add _⟩
  · rw [he, State.fired_tickCnt hw]
    refine ⟨1, ⟨State.fired_topo hw, State.fired_interval hw, congrArg State.phase (State.fired_frame hw),
      State.fired_index hw, ?_⟩, by omega, by omega⟩
    rw [State.fired_trace hw, scanStepsIn_append, State.scanStepsIn_scanEvents]

theorem step_tick_scanned {s : State} {rest : List Input} (hw : s.topo.wf = true) (hp : s.phase = 0#3)
    (hi : s.index < s.topo.rowsPerScan) (hlt : s.tickCnt < s.interval) (hin : s.inputs = .tick 1#1 :: rest) :
    ∃ q u, step s = .next u ∧ s.Scanned q u ∧ u.inputs = rest ∧ u.tickCnt < s.interval ∧
      s.interval * q + u.tickCnt = s.tickCnt + 1 := by
  obtain ⟨q, hscan, hcount, hsum⟩ := State.scanned_tickOnce (s := { s with inputs := rest }) hw hp hi hlt
  exact ⟨q, _, step_tick hw hp hin, { hscan with }, effect_inputs .tick (s := { s with inputs := rest }) hw, hcount, hsum⟩

/-- `k` ticks: each is counted, or is the last of the `interval` that make a scan step. -/
theorem runSteps_ticks (k : Nat) {s : State} (hw : s.topo.wf = true) (hp : s.phase = 0#3) (hi : s.index < s.topo.rowsPerScan)
    (hlt : s.tickCnt < s.interval) (hin : s.inputs = List.replicate k (.tick 1#1)) :
    ∃ q t, runSteps k s = .next t ∧ s.Scanned q t ∧ t.inputs = [] ∧ t.tickCnt < s.interval ∧
      s.interval * q + t.tickCnt = s.tickCnt + k := by
  induction k generalizing s with
  | zero => exact ⟨0, s, rfl, ⟨rfl, rfl, hp, (Nat.mod_eq_of_lt hi).symm, rfl⟩, hin, hlt, by omega⟩
  | succ k ih =>
    obtain ⟨q, u, hst, hscan, hinu, hltu, hsum⟩ := step_tick_scanned hw hp hi hlt hin
    have hiu : u.index < u.topo.rowsPerScan := by
      rw [hscan.index, hscan.topo]
      exact Nat.mod_lt _ (Nat.zero_lt_of_lt hi)
    obtain ⟨q', t, hrun, hscan', hint, hltt, hsum'⟩ := ih (hscan.topo ▸ hw) hscan.phase hiu (hscan.interval ▸ hltu) hinu
    rw [hscan.interval] at hltt hsum'
    refine ⟨q + q', t, (runSteps_succ hst k).trans hrun, hscan.trans hscan', hint, hltt, ?_⟩
    rw [Nat.mul_add]
    omega

/-- Settles O53: `n * q + r` ticks from count 0, with `r < n`, are worth `q` scan steps and a count of `r`, in one way only. -/
theorem dividerFiresEveryNthTick : Obligations.DividerFiresEveryNthTick := by
  intro s n q r hw hp hi hpos _ hr hin
  obtain ⟨q', t, hrun, hscan, hint, hlt, hsum⟩ :=
    runSteps_ticks (n * q + r) (s := { s with interval := n, tickCnt := 0 }) hw hp hi hpos hin
  have hsum : n * q' + t.tickCnt = n * q + r := hsum.trans (Nat.zero_add _)
  obtain ⟨hq, hc⟩ := (Nat.div_mod_unique hpos).2 ⟨(Nat.add_comm ..).trans hsum, hlt⟩
  obtain ⟨rfl, rfl⟩ : q = q' ∧ r = t.tickCnt := by
    rw [← hq, ← hc, Nat.mul_add_div hpos, Nat.mul_add_mod, Nat.div_eq_of_lt hr, Nat.mod_eq_of_lt hr]
    exact ⟨rfl, rfl⟩
  exact ⟨t, hrun, hscan.index, rfl, hscan.interval, hint, hscan.steps⟩

/-! ### The listing `FILL` (30_encoding.md R63) -/

/-- The coordinates `FILL` goes through, in its order; `fill_eq_map` ties them to the listing. -/
def pixelsOf (T : Topology) : List (Nat × Nat) := (List.range T.height).flatMap fun y => (List.range T.width).map fun x => (x, y)

/-- The offset of the byte that `SETPIX` at these coordinates stores (43 R110, R111). -/
def placeOf (T : Topology) (a : Nat × Nat) : Nat := T.pixelOffset (T.bufferRow a.2) a.1

theorem fill_eq_map (T : Topology) (c : Byte) : fill T c = (pixelsOf T).map fun a => .setpix a.1 a.2 c := by
  simp only [fill, pixelsOf, List.map_flatMap, List.map_map, Function.comp_def]

theorem length_pixelsOf (T : Topology) : (pixelsOf T).length = T.width * T.height := by
  simp [pixelsOf, List.length_flatMap, Nat.mul_comm]

theorem mem_pixelsOf {T : Topology} {a : Nat × Nat} : a ∈ pixelsOf T ↔ a.1 < T.width ∧ a.2 < T.height := by
  obtain ⟨x, y⟩ := a
  simp [pixelsOf, and_comm]

theorem bufferRow_bufferRow {T : Topology} {y : Nat} (hy : y < T.height) : T.bufferRow (T.bufferRow y) = y := by
  unfold Topology.bufferRow
  split <;> omega

/-- Every offset of a plane is that of a pixel (20_memory.md R31). -/
theorem exists_placeOf_eq {T : Topology} {off : Nat} (hoff : off < T.width * T.height) : ∃ a ∈ pixelsOf T, placeOf T a = off := by
  have hrow : off / T.width < T.height := Nat.div_lt_of_lt_mul hoff
  have hcol : off % T.width < T.width := Nat.mod_lt _ (Nat.pos_of_mul_pos_right (Nat.zero_lt_of_lt hoff))
  refine ⟨(off % T.width, T.bufferRow (off / T.width)), mem_pixelsOf.2 ⟨hcol, Topology.bufferRow_lt hrow⟩, ?_⟩
  rw [placeOf, bufferRow_bufferRow hrow]
  exact Nat.div_add_mod' off T.width

/-- From `s` to `t` the pixels at `as` have been set to `c`, and nothing but moves has been taken besides. -/
structure State.Painted (s : State) (c : Byte) (as : List (Nat × Nat)) (t : State) : Prop where
  frame : t = { s with plane0 := t.plane0, plane1 := t.plane1, inputs := t.inputs }
  set : ∀ off ∈ as.map (placeOf s.topo), t.memRead s.drawSel off = c &&& 7#8
  kept : ∀ sel off, ¬(sel = s.drawSel ∧ off ∈ as.map (placeOf s.topo)) → t.memRead sel off = s.memRead sel off

theorem State.Painted.nil (s : State) (c : Byte) : s.Painted c [] s := ⟨rfl, fun _ h => absurd h List.not_mem_nil, fun _ _ _ => rfl⟩

/-- One pixel is set, then the others: where one of them has its place, the byte stored is the same. -/
theorem State.Painted.cons {s t : State} {c : Byte} {a : Nat × Nat} {as : List (Nat × Nat)}
    (h : (s.storePixel a.1 a.2 c).Painted c as t) : s.Painted c (a :: as) t := by
  obtain ⟨hframe, hset, hkept⟩ := h
  have hstore : s.storePixel a.1 a.2 c = s.memWrite s.drawSel (placeOf s.topo a) (c &&& 7#8) := by
    rw [← storedColour_eq_and]
    rfl
  rw [hstore, State.memWrite_drawSel, State.memWrite_topo] at hset hkept
  rw [hstore, State.memWrite_eq_withPlanes] at hframe
  refine ⟨hframe, fun off hoff => ?_, fun sel off hno => ?_⟩
  · by_cases hrest : off ∈ as.map (placeOf s.topo)
    · exact hset off hrest
    · obtain rfl : off = placeOf s.topo a := (List.mem_cons.1 hoff).resolve_right hrest
      rw [hkept _ _ fun hd => hrest hd.2, State.memRead_memWrite_same]
  · rw [hkept sel off fun hd => hno ⟨hd.1, List.mem_cons_of_mem _ hd.2⟩]
    refine s.memRead_memWrite_other _ _ _ (not_and_or.1 fun hd => hno ⟨hd.1, ?_⟩)
    exact hd.2 ▸ List.mem_cons_self

theorem listing_cons {i : Instr} {w : PortBits} (hi : i.wellFormed = true) (henc : encode i = .cmd w) (is : List Instr) :
    listing (i :: is) = .command w :: listing is :=
  List.filterMap_cons_some (by simp [issue, hi, henc])

/-- A listing of `SETPIX` commands of one colour, each in range and with a word, runs whole. -/
theorem runSteps_setpixs (c : Byte) (as : List (Nat × Nat)) {s : State} (hw : s.topo.wf = true) (hp : s.phase = 0#3)
    (hin : s.inputs = listing (as.map fun a => .setpix a.1 a.2 c))
    (hrange : ∀ a ∈ as, completesOn s.topo (.setpix a.1 a.2 c) ∧ (Instr.setpix a.1 a.2 c).wellFormed = true) :
    ∃ t, runSteps as.length s = .next t ∧ s.Painted c as t ∧ t.inputs = [] := by
  induction as generalizing s with
  | nil => exact ⟨s, rfl, .nil s c, hin⟩
  | cons a as ih =>
    obtain ⟨⟨hc, hwf⟩, hrest⟩ := List.forall_mem_cons.1 hrange
    rw [List.map_cons, listing_cons hwf rfl] at hin
    have hst := step_encoded hw hp hwf rfl hc hin
    generalize listing (as.map fun a => Instr.setpix a.1 a.2 c) = rest at hin hst ih
    obtain ⟨t, hrun, hpaint, hdone⟩ := ih (s := ({ s with inputs := rest } : State).storePixel a.1 a.2 c)
      (by rw [State.storePixel, State.memWrite_topo]; exact hw) (by rw [State.storePixel, State.memWrite_phase]; exact hp)
      (State.memWrite_inputs ..) (by rw [State.storePixel, State.memWrite_topo]; exact hrest)
    exact ⟨t, (runSteps_succ hst as.length).trans hrun, { hpaint.cons with }, hdone⟩

/-- Settles O55: the listing is one `SETPIX` for each pixel, and the pixels' offsets are all those of a plane. -/
theorem fillWritesTheWholeDrawPlane : Obligations.FillWritesTheWholeDrawPlane := by
  intro s c h hp hwidth hheight hin
  rw [fill_eq_map] at hin
  have hrange : ∀ a ∈ pixelsOf s.topo,
      completesOn s.topo (.setpix a.1 a.2 c) ∧ (Instr.setpix a.1 a.2 c).wellFormed = true := by
    intro a ha
    obtain ⟨hx, hy⟩ := mem_pixelsOf.1 ha
    exact ⟨⟨hx, hy⟩, wellFormed_setpix_iff.2 ⟨hx.trans_le hwidth, hy.trans_le hheight⟩⟩
  obtain ⟨t, hrun, hpaint, hdone⟩ := runSteps_setpixs c (pixelsOf s.topo) h.topo_wf hp hin hrange
  rw [length_pixelsOf] at hrun
  refine ⟨t, hrun, fun off hoff => ?_, fun off => ?_, hdone ▸ hpaint.frame⟩
  · exact hpaint.set off (List.mem_map.2 (exists_placeOf_eq hoff))
  · exact hpaint.kept s.displaySel off fun hd => s.displaySel_ne_drawSel hd.1

end Sys2Proof.Machine
end
